-- ==== Sys2Proof/Word.lean ====
section
/-! DEFINITION. The unit the block handles: one 8-bit byte (spec/00_scope.md R10). -/

namespace Sys2Proof

/-- R10: every wire unit, buffer cell and interface datum is one byte. -/
abbrev Byte := BitVec 8

end Sys2Proof
end

