-- ==== Sys2Proof/Config.lean ====
section
/-! DEFINITION. The parameters of the block (spec/00_scope.md R9), the channel registry's shape (10_state.md R45),
the CRC-16 variants the spec names (40_crc.md R106), the spec's test configuration (95_test_vectors.md section 1) and
the model's two free values. Text is written as its ASCII codes. -/

namespace Sys2Proof

/-- R100: `(POLY, INIT, REFIN, REFOUT, XOROUT)`. -/
structure CrcVariant where
  poly   : BitVec 16
  init   : BitVec 16
  refIn  : Bool
  refOut : Bool
  xorOut : BitVec 16
  deriving DecidableEq, Repr

/-- R106, the spec's default (R101). -/
def crc16Arc : CrcVariant := ⟨0x8005, 0x0000, true, true, 0x0000⟩
/-- R106. -/
def crc16Modbus : CrcVariant := ⟨0x8005, 0xFFFF, true, true, 0x0000⟩
/-- R106. -/
def crc16Xmodem : CrcVariant := ⟨0x1021, 0x0000, false, false, 0x0000⟩
/-- R106. -/
def crc16CcittFalse : CrcVariant := ⟨0x1021, 0xFFFF, false, false, 0x0000⟩
/-- R106. -/
def crc16Kermit : CrcVariant := ⟨0x1021, 0x0000, true, true, 0x0000⟩

/-- R9 `SOH_AT_ADDR0`: what an SOH byte does in receive state `ADDR0` (R123, R124). -/
inductive SohAtAddr0 where
  | restart
  | toIdle
  deriving DecidableEq, Repr

/-- R45 `valueType`. -/
inductive ValueType where
  | boolean
  | integer
  deriving DecidableEq, Repr

/-- R45 `access`. -/
inductive Access where
  | readOnly
  | readWrite
  deriving DecidableEq, Repr

/-- R45: one channel descriptor of the registry. -/
structure Descriptor where
  name      : List Byte
  portCount : Nat
  valueType : ValueType
  access    : Access
  minBound  : List Byte
  maxBound  : List Byte
  deriving DecidableEq, Repr

/-- R9: the parameters a model of the block takes. `T_PRE` and `T_POST` are not among them: the block sees them only as
the events `pre_done` and `post_done`, and their durations are out of scope (R8). `ticksPerSecond` is the tick
scheduler's parameter (R246). -/
structure Config where
  crc            : CrcVariant
  rawCap         : Nat
  contentCap     : Nat
  sohAtAddr0     : SohAtAddr0
  numMax         : Nat
  vtIntChar      : Byte
  accRoChar      : Byte
  uptimeW        : Nat
  respContentCap : Nat
  registry       : List Descriptor
  moduleName     : List Byte
  ticksPerSecond : Nat
  deriving DecidableEq, Repr

/-- The registry of 95_test_vectors.md section 1: RELAY_VALUE, PWM_VALUE, LEVEL_SENSOR, FREQ_SENSOR. -/
def testRegistry : List Descriptor :=
  [ { name := [0x52, 0x45, 0x4C, 0x41, 0x59, 0x5F, 0x56, 0x41, 0x4C, 0x55, 0x45], portCount := 8
      valueType := .boolean, access := .readWrite, minBound := [0x30], maxBound := [0x31] },
    { name := [0x50, 0x57, 0x4D, 0x5F, 0x56, 0x41, 0x4C, 0x55, 0x45], portCount := 2
      valueType := .integer, access := .readWrite, minBound := [0x30], maxBound := [0x32, 0x35, 0x35] },
    { name := [0x4C, 0x45, 0x56, 0x45, 0x4C, 0x5F, 0x53, 0x45, 0x4E, 0x53, 0x4F, 0x52], portCount := 4
      valueType := .boolean, access := .readOnly, minBound := [0x30], maxBound := [0x31] },
    { name := [0x46, 0x52, 0x45, 0x51, 0x5F, 0x53, 0x45, 0x4E, 0x53, 0x4F, 0x52], portCount := 2
      valueType := .integer, access := .readOnly, minBound := [0x30], maxBound := [0x36, 0x35, 0x35, 0x33, 0x35] } ]

/-- The configuration of 95_test_vectors.md section 1 (92_eei_decisions.md D35), with the defaults of R9 for the
parameters that have one. DESIGN CHOICE (log 2), unsafe: `State.reset` carries it, and no rule fixes these values. -/
def testConfig : Config where
  crc            := crc16Arc
  rawCap         := 64
  contentCap     := 32
  sohAtAddr0     := .restart
  numMax         := 65535
  vtIntChar      := 0x49
  accRoChar      := 0x52
  uptimeW        := 32
  respContentCap := 64
  registry       := testRegistry
  moduleName     := [0x52, 0x45, 0x4C, 0x41, 0x59]
  ticksPerSecond := 50

/-- R268, 93_implementation_defined.md U8: the value of `DEV_ADDR` when a strap changes at the instant of reset release,
"any value in 0..31". It has no body, so nothing can be proved of the values it takes (log 9). -/
opaque Config.unsettledStrapAddr : Nat → BitVec 5

/-- R60, 93_implementation_defined.md U7: which of the values that the scheduler held between the acceptance of a `P` frame and
the start of its response the snapshot returns. It has no body, so nothing can be proved of the choice (log 24). -/
opaque Config.snapshotInstant : Nat → Nat

end Sys2Proof
end

