-- ==== Sys2Proof/Machine/Chars.lean ====
section
/-! DEFINITION. Control bytes, hexadecimal and decimal renderings and the decimal field grammar (spec/30_encoding.md
section 1, 2 and 3). -/

namespace Sys2Proof.Machine

/-- R72. -/
def soh : Byte := 0x01
/-- R72. -/
def stx : Byte := 0x02
/-- R72. -/
def etx : Byte := 0x03
/-- R72: `':'`. -/
def colon : Byte := 0x3A
/-- R72: the whole content of a write acknowledgement. -/
def ack : Byte := 0x06
/-- R72: the first byte of every error response content. -/
def nak : Byte := 0x15

/-- R76: `hex1`, the uppercase ASCII hex digit of a 4-bit value. -/
def hex1 (n : BitVec 4) : Byte :=
  if n ≤ 9#4 then 0x30#8 + n.setWidth 8 else 0x41#8 + (n.setWidth 8 - 10#8)

/-- R76: `hex2`, most significant nibble first. -/
def hex2 (a : Byte) : List Byte :=
  [hex1 (a.extractLsb' 4 4), hex1 (a.extractLsb' 0 4)]

/-- R76: `hex4`, most significant nibble first. -/
def hex4 (v : BitVec 16) : List Byte :=
  [hex1 (v.extractLsb' 12 4), hex1 (v.extractLsb' 8 4), hex1 (v.extractLsb' 4 4), hex1 (v.extractLsb' 0 4)]

/-- The ASCII digit of a number below 10. -/
def digitChar (n : Nat) : Byte := BitVec.ofNat 8 (0x30 + n)

/-- The digits of `n`, most significant first; any fuel of at least `n` gives them all. -/
def decDigits : Nat → Nat → List Byte
  | 0, n => [digitChar n]
  | fuel + 1, n => if n < 10 then [digitChar n] else decDigits fuel (n / 10) ++ [digitChar (n % 10)]

/-- R78: `dec`, the shortest decimal rendering. -/
def dec (n : Nat) : List Byte := decDigits n n

/-- R80: whether a byte is in 0x30..0x39. -/
def isDigit (b : Byte) : Bool := decide (0x30 ≤ b.toNat) && decide (b.toNat ≤ 0x39)

/-- R80: the digit loop of `parse_num`, exact and without wrap. -/
def parseDigits : List Byte → Nat → Option Nat
  | [], v => some v
  | b :: bs, v => if isDigit b then parseDigits bs (10 * v + (b.toNat - 0x30)) else none

/-- R80: `parse_num`, a strict decimal field of at most `numMax`. -/
def parseNum (numMax : Nat) (field : List Byte) : Option Nat :=
  if field.isEmpty then none
  else
    match parseDigits field 0 with
    | none => none
    | some v => if v ≤ numMax then some v else none

/-- R81: `split1`, the parts before and after the first `':'`. -/
def split1 : List Byte → Option (List Byte × List Byte)
  | [] => none
  | b :: bs =>
    if b = colon then some ([], bs)
    else
      match split1 bs with
      | none => none
      | some (before, after) => some (b :: before, after)

end Sys2Proof.Machine
end

