-- ==== Sys2Proof/Machine/Crc.lean ====
section
/-! DEFINITION. The CRC-16 checksum unit (spec/40_crc.md). -/

namespace Sys2Proof.Machine

/-- R100: one turn of the inner loop, most significant bit first. -/
def crcShift (poly c : BitVec 16) : BitVec 16 :=
  if c.msb then (c <<< 1) ^^^ poly else c <<< 1

/-- R100: `repeat n times`. -/
def crcShiftTimes (poly : BitVec 16) : Nat → BitVec 16 → BitVec 16
  | 0, c => c
  | n + 1, c => crcShiftTimes poly n (crcShift poly c)

/-- R100: one turn of the outer loop, for one byte of the sequence. -/
def crcByte (v : CrcVariant) (c : BitVec 16) (b : Byte) : BitVec 16 :=
  let b := if v.refIn then b.reverse else b
  crcShiftTimes v.poly 8 (c ^^^ (b.setWidth 16 <<< 8))

/-- R100: the checksum of a byte sequence, read left to right. -/
def crc16 (v : CrcVariant) (bytes : List Byte) : BitVec 16 :=
  let c := bytes.foldl (crcByte v) v.init
  (if v.refOut then c.reverse else c) ^^^ v.xorOut

/-- R102: one turn of the inner loop of the byte-serial form of CRC-16/ARC, least significant bit first. -/
def crcShiftRight (c : BitVec 16) : BitVec 16 :=
  if c.getLsbD 0 then (c >>> 1) ^^^ 0xA001#16 else c >>> 1

/-- R102: `repeat n times`. -/
def crcShiftRightTimes : Nat → BitVec 16 → BitVec 16
  | 0, c => c
  | n + 1, c => crcShiftRightTimes n (crcShiftRight c)

/-- R102: `crc_update`. -/
def crcUpdate (c : BitVec 16) (b : Byte) : BitVec 16 :=
  crcShiftRightTimes 8 (c ^^^ b.setWidth 16)

/-- R102: `crc16_arc`, the byte-serial form. -/
def crcBytewiseArc (bytes : List Byte) : BitVec 16 :=
  bytes.foldl crcUpdate 0x0000#16

end Sys2Proof.Machine
end

