-- ==== Sys2Proof/Machine/Frame.lean ====
section
/-! DEFINITION. The wire frame (spec/30_encoding.md R70, R71) and the address characters (10_state.md R37). -/

namespace Sys2Proof.Machine

/-- R37: `ADDR_CH0`. -/
def addrCh0 (addr : BitVec 5) : Byte := hex1 ((addr.setWidth 8 : Byte).extractLsb' 4 4)

/-- R37: `ADDR_CH1`. -/
def addrCh1 (addr : BitVec 5) : Byte := hex1 ((addr.setWidth 8 : Byte).extractLsb' 0 4)

/-- R70, R71: the bytes the checksum covers, SOH through ETX, of a frame whose address field is `a0 a1`. -/
def frameBody (a0 a1 cmd : Byte) (content : List Byte) : List Byte :=
  [soh, a0, a1, colon, cmd, stx] ++ content ++ [etx]

/-- R74: the body and its checksum as four hex digits. -/
def frame (v : CrcVariant) (a0 a1 cmd : Byte) (content : List Byte) : List Byte :=
  frameBody a0 a1 cmd content ++ hex4 (crc16 v (frameBody a0 a1 cmd content))

/-- R70, R77: a request to the node with address `addr` (`REQ` of R88). -/
def requestFrame (v : CrcVariant) (addr : BitVec 5) (cmd : Byte) (content : List Byte) : List Byte :=
  frame v (addrCh0 addr) (addrCh1 addr) cmd content

/-- R71, R202: a response, which always carries the address `"FF"` (`RSP` of R88). -/
def responseFrame (v : CrcVariant) (cmd : Byte) (content : List Byte) : List Byte :=
  frame v 0x46 0x46 cmd content

end Sys2Proof.Machine
end

