-- ==== Sys2Proof/Syntax.lean ====
section
/-! DEFINITION. The instructions: one constructor for each row of spec/opcode_table.json, that is for each command letter
`A`..`Z` (spec/30_encoding.md R86). The operand of each is the accepted content `CONTENT[0..DLEN)` (R81). -/

namespace Sys2Proof

/-- R86: the command map. `content` is the content the receiver delivered with the letter. -/
inductive Instr where
  /-- `P`, ping and status (R163). -/
  | p (content : List Byte)
  /-- `D`, describe a channel (R164). -/
  | d (content : List Byte)
  /-- `R`, read a port (R165). -/
  | r (content : List Byte)
  /-- `W`, write a port (R166). -/
  | w (content : List Byte)
  -- The other 22 letters spell no operation (R167).
  | nopA (content : List Byte)
  | nopB (content : List Byte)
  | nopC (content : List Byte)
  | nopE (content : List Byte)
  | nopF (content : List Byte)
  | nopG (content : List Byte)
  | nopH (content : List Byte)
  | nopI (content : List Byte)
  | nopJ (content : List Byte)
  | nopK (content : List Byte)
  | nopL (content : List Byte)
  | nopM (content : List Byte)
  | nopN (content : List Byte)
  | nopO (content : List Byte)
  | nopQ (content : List Byte)
  | nopS (content : List Byte)
  | nopT (content : List Byte)
  | nopU (content : List Byte)
  | nopV (content : List Byte)
  | nopX (content : List Byte)
  | nopY (content : List Byte)
  | nopZ (content : List Byte)
  deriving DecidableEq, Repr

/-- The command letter of an instruction (R86). -/
def Instr.letter : Instr → Byte
  | .p _ => 0x50
  | .d _ => 0x44
  | .r _ => 0x52
  | .w _ => 0x57
  | .nopA _ => 0x41
  | .nopB _ => 0x42
  | .nopC _ => 0x43
  | .nopE _ => 0x45
  | .nopF _ => 0x46
  | .nopG _ => 0x47
  | .nopH _ => 0x48
  | .nopI _ => 0x49
  | .nopJ _ => 0x4A
  | .nopK _ => 0x4B
  | .nopL _ => 0x4C
  | .nopM _ => 0x4D
  | .nopN _ => 0x4E
  | .nopO _ => 0x4F
  | .nopQ _ => 0x51
  | .nopS _ => 0x53
  | .nopT _ => 0x54
  | .nopU _ => 0x55
  | .nopV _ => 0x56
  | .nopX _ => 0x58
  | .nopY _ => 0x59
  | .nopZ _ => 0x5A

/-- The content an instruction was delivered with (R81). -/
def Instr.content : Instr → List Byte
  | .p c | .d c | .r c | .w c => c
  | .nopA c | .nopB c | .nopC c | .nopE c | .nopF c | .nopG c | .nopH c | .nopI c | .nopJ c | .nopK c | .nopL c => c
  | .nopM c | .nopN c | .nopO c | .nopQ c | .nopS c | .nopT c | .nopU c | .nopV c | .nopX c | .nopY c | .nopZ c => c

end Sys2Proof
end

