-- ==== Sys2Proof/Decode.lean ====
section
/-! DEFINITION. From bytes to instructions and back. `decode` reads a command word, the command letter and the content the
receiver delivers with it (spec/30_encoding.md R86); `decodeFrame` reads a whole request frame as one piece (R70);
`encodeWord` and `encode` write them. Then the host's `decodeTableWord`. -/

namespace Sys2Proof

/-- One row of spec/opcode_table.json: the command byte is matched under a mask (R86). -/
structure OpRow where
  mnemonic : String
  pattern  : Byte
  mask     : Byte
  build    : List Byte → Instr

/-- spec/opcode_table.json, row by row. -/
def opTable : List OpRow :=
  [ ⟨"P", 0x50, 0xFF, .p⟩,
    ⟨"D", 0x44, 0xFF, .d⟩,
    ⟨"R", 0x52, 0xFF, .r⟩,
    ⟨"W", 0x57, 0xFF, .w⟩,
    ⟨"NOP_A", 0x41, 0xFF, .nopA⟩,
    ⟨"NOP_B", 0x42, 0xFF, .nopB⟩,
    ⟨"NOP_C", 0x43, 0xFF, .nopC⟩,
    ⟨"NOP_E", 0x45, 0xFF, .nopE⟩,
    ⟨"NOP_F", 0x46, 0xFF, .nopF⟩,
    ⟨"NOP_G", 0x47, 0xFF, .nopG⟩,
    ⟨"NOP_H", 0x48, 0xFF, .nopH⟩,
    ⟨"NOP_I", 0x49, 0xFF, .nopI⟩,
    ⟨"NOP_J", 0x4A, 0xFF, .nopJ⟩,
    ⟨"NOP_K", 0x4B, 0xFF, .nopK⟩,
    ⟨"NOP_L", 0x4C, 0xFF, .nopL⟩,
    ⟨"NOP_M", 0x4D, 0xFF, .nopM⟩,
    ⟨"NOP_N", 0x4E, 0xFF, .nopN⟩,
    ⟨"NOP_O", 0x4F, 0xFF, .nopO⟩,
    ⟨"NOP_Q", 0x51, 0xFF, .nopQ⟩,
    ⟨"NOP_S", 0x53, 0xFF, .nopS⟩,
    ⟨"NOP_T", 0x54, 0xFF, .nopT⟩,
    ⟨"NOP_U", 0x55, 0xFF, .nopU⟩,
    ⟨"NOP_V", 0x56, 0xFF, .nopV⟩,
    ⟨"NOP_X", 0x58, 0xFF, .nopX⟩,
    ⟨"NOP_Y", 0x59, 0xFF, .nopY⟩,
    ⟨"NOP_Z", 0x5A, 0xFF, .nopZ⟩ ]

/-- Whether a command byte is a row's opcode. -/
def matchesRow (cmd : Byte) (row : OpRow) : Bool := cmd &&& row.mask == row.pattern

/-- Why bytes are no command word. -/
inductive DecodeReject where
  /-- There is no byte. -/
  | noCommandByte
  /-- The command byte is outside 0x41..0x5A (R87 (a)). -/
  | notACommandLetter (cmd : Byte)
  deriving DecidableEq, Repr

/-- R86: the instruction of a command byte and the content behind it. -/
def decode : List Byte → Except DecodeReject Instr
  | [] => .error .noCommandByte
  | cmd :: content =>
    match opTable.find? (matchesRow cmd) with
    | none => .error (.notACommandLetter cmd)
    | some row => .ok (row.build content)

/-- The command word of an instruction: its letter, then its content. -/
def encodeWord (i : Instr) : List Byte := i.letter :: i.content

/-- R70: the request frame that carries an instruction to the node with address `addr`. -/
def encode (cfg : Config) (addr : BitVec 5) (i : Instr) : List Byte :=
  Machine.requestFrame cfg.crc addr i.letter i.content

/-- Why bytes are no request frame that this node accepts, in the order of the receive states (R237). -/
inductive FrameReject where
  /-- Fewer bytes than a header. -/
  | truncatedHeader
  /-- Offset 0 is not SOH. -/
  | noStartMarker
  /-- Offsets 1 and 2 are not the node's address (R143). -/
  | otherAddress
  /-- Offset 3 is not `':'`. -/
  | noSeparator
  /-- Offset 4 is outside 0x41..0x5A. -/
  | notACommandLetter
  /-- Offset 5 is not STX. -/
  | noContentStart
  /-- No ETX before the end or before another SOH. -/
  | contentNotEnded
  /-- SOH through ETX do not fit the raw buffer (R144). -/
  | tooLong
  /-- The bytes behind the ETX are not the four expected digits (R105). -/
  | wrongChecksum
  deriving DecidableEq, Repr

/-- R132, R133: the content before the first ETX and the bytes behind it; none where an SOH or the end comes first. -/
def splitAtEtx : List Byte → Option (List Byte × List Byte)
  | [] => none
  | b :: bs =>
    if b = Machine.soh then none
    else if b = Machine.etx then some ([], bs)
    else
      match splitAtEtx bs with
      | none => none
      | some (content, rest) => some (b :: content, rest)

/-- R70, R143 to R145: the instruction of one whole request frame, as the receiver of the node with address `addr` reads
it: the content is cut at the content buffer's capacity, the checksum is not. -/
def decodeFrame (cfg : Config) (addr : BitVec 5) : List Byte → Except FrameReject Instr
  | b0 :: b1 :: b2 :: b3 :: b4 :: b5 :: rest =>
    if b0 ≠ Machine.soh then .error .noStartMarker
    else if b1 ≠ Machine.addrCh0 addr ∨ b2 ≠ Machine.addrCh1 addr then .error .otherAddress
    else if b3 ≠ Machine.colon then .error .noSeparator
    else
      match opTable.find? (matchesRow b4) with
      | none => .error .notACommandLetter
      | some row =>
        if b5 ≠ Machine.stx then .error .noContentStart
        else
          match splitAtEtx rest with
          | none => .error .contentNotEnded
          | some (content, digits) =>
            if cfg.rawCap < 7 + content.length then .error .tooLong
            else if digits = Machine.hex4 (Machine.crc16 cfg.crc (Machine.frameBody b1 b2 b4 content)) then
              .ok (row.build (content.take cfg.contentCap))
            else .error .wrongChecksum
  | _ => .error .truncatedHeader

/-- The bytes of an instruction whose bits are `w`, the least significant byte first, in `nbits` bits. -/
def tableWordBytes (nbits w : Nat) : List Byte :=
  (List.range ((nbits + 7) / 8)).map fun k => BitVec.ofNat 8 (w >>> (8 * k))

/-- The instruction the decoder reads from a word of spec/opcode_table.json: the table gives the command byte, and the
content it gives no bits to is empty (log 13). -/
def decodeTableWord (nbits w : Nat) : Option Instr :=
  match decode (tableWordBytes nbits w) with
  | .ok i => some i
  | .error _ => none

end Sys2Proof
end

