-- ==== Sys2Proof/Machine/Registry.lean ====
section
/-! DEFINITION. What the decoder renders from the configuration (spec/42_commands.md R163, R164) and when a configuration is
well formed (10_state.md R45, 70_reset_and_hazards.md R266). -/

namespace Sys2Proof.Machine

/-- R45: `N`, the number of channels. -/
def channelCount (cfg : Config) : Nat := cfg.registry.length

/-- R82, R163: the content of a ping response. -/
def pingContent (cfg : Config) (uptime : Nat) : List Byte :=
  cfg.moduleName ++ [colon] ++ dec (channelCount cfg) ++ [colon] ++ dec uptime

/-- R83: the letter of a value type. -/
def valueTypeChar (cfg : Config) : ValueType → Byte
  | .boolean => 0x42
  | .integer => cfg.vtIntChar

/-- R83: the letter of an access. -/
def accessChar (cfg : Config) : Access → Byte
  | .readWrite => 0x57
  | .readOnly => cfg.accRoChar

/-- R82, R164: the content of a describe response. -/
def describeContent (cfg : Config) (d : Descriptor) : List Byte :=
  d.name ++ [colon] ++ dec d.portCount ++ [colon] ++ [valueTypeChar cfg d.valueType] ++ [colon]
    ++ [accessChar cfg d.access] ++ [colon] ++ d.minBound ++ [colon] ++ d.maxBound

/-- R45: a string without SOH, STX and ETX. -/
def noControlByte (s : List Byte) : Bool := s.all fun b => b != soh && b != stx && b != etx

/-- A string of ASCII codes. -/
def isAscii (s : List Byte) : Bool := s.all fun b => decide (b.toNat < 0x80)

/-- R45, R266: a descriptor of a well-formed configuration. -/
def descriptorOk (cfg : Config) (d : Descriptor) : Bool :=
  decide (d.name.length ≤ 15) && isAscii d.name
    && decide (1 ≤ d.portCount) && decide (d.portCount ≤ cfg.numMax)
    && noControlByte d.name && noControlByte d.minBound && noControlByte d.maxBound
    && decide ((describeContent cfg d).length ≤ cfg.respContentCap)

/-- R9: the constraints of the parameter table, and that the scheduler's rate is positive (R246, log 11). -/
def parametersOk (cfg : Config) : Bool :=
  decide (7 ≤ cfg.rawCap) && decide (18 ≤ cfg.respContentCap) && decide (1 ≤ cfg.uptimeW)
    && decide (1 ≤ cfg.ticksPerSecond) && isAscii [cfg.vtIntChar, cfg.accRoChar]

/-- R45, R266: a well-formed configuration. The ping response is measured with the longest uptime. -/
def configOk (cfg : Config) : Bool :=
  parametersOk cfg && decide (channelCount cfg ≤ cfg.numMax)
    && isAscii cfg.moduleName && noControlByte cfg.moduleName
    && decide ((pingContent cfg (2 ^ cfg.uptimeW - 1)).length ≤ cfg.respContentCap)
    && cfg.registry.all (descriptorOk cfg)

end Sys2Proof.Machine
end

