-- ==== Sys2Proof/Machine/State.lean ====
section
/-! DEFINITION. The state of the block (spec/10_state.md, 20_memory.md), the input signals of one instant (R40 to R44), why
a step can stop, and the state after reset (R39, R261, R262). -/

namespace Sys2Proof.Machine

/-- R20: the engine's phases. -/
inductive Phase where
  | rx
  | dispatch
  | capWait
  | tx
  deriving DecidableEq, Repr

/-- R23: the receive states. -/
inductive RxState where
  | idle
  | addr0
  | addr1
  | sep
  | cmd
  | cstart
  | content
  | ck0
  | ck1
  | ck2
  | ck3
  deriving DecidableEq, Repr

/-- R30: the transmit sequencer's states. -/
inductive TxState where
  | idle
  | pre
  | send
  | drain
  | post
  deriving DecidableEq, Repr

/-- R33: the outstanding capability request. -/
inductive CapKind where
  | none
  | read
  | write
  deriving DecidableEq, Repr

/-- R50 to R52: the three buffers. -/
inductive BufId where
  | raw
  | content
  | txbuf
  deriving DecidableEq, Repr

/-- The registers that hold a defined value only in some states (R27 to R29, R41). -/
inductive RegId where
  | cmd
  | expCrc
  | dcmd
  | dlen
  | txData
  deriving DecidableEq, Repr

/-- A buffer's cells that have been written, as (index, byte) pairs with strictly rising indices. A cell that is not listed
holds no value (R49, log 7). -/
abbrev Memory := List Host.Cell

/-- The input signals of one instant: `rst` and the straps (R44), the receive interface (R40), the transmit interface and
the settle timer (R41), the capability response (R42). `strapsSettled` is false where a strap changes at this very
instant (R268). -/
structure Inputs where
  rst            : Bool := false
  addrStrapN     : BitVec 5 := 0x1F
  strapsSettled  : Bool := true
  rxValid        : Bool := false
  rxData         : Byte := 0
  rxFerr         : Bool := false
  txReady        : Bool := false
  txComplete     : Bool := false
  preDone        : Bool := false
  postDone       : Bool := false
  capRspValid    : Bool := false
  capRspOk       : Bool := false
  capRspContent  : List Byte := []
  deriving DecidableEq, Repr

/-- What the environment does next (R3, R21): one instant of the block's interface, or one firing of the tick scheduler,
which changes only the uptime it presents (R239, R244). -/
inductive Event where
  | instant (i : Inputs)
  | tick
  deriving DecidableEq, Repr

/-- What the block hands to the environment (R14): a byte to the UART transmitter, a request to a channel provider. -/
inductive Emission where
  | txByte (b : Byte)
  | capRead (channel port : Nat)
  | capWrite (channel port : Nat) (value : List Byte)
  deriving DecidableEq, Repr

/-- The block's state. The last four fields are the model's own: the uptimes an uptime snapshot may also return (log 24), the
environment's events still to come (log 3), the record of what was handed to it (log 10), and the counter of free values drawn
(log 9, 24). -/
structure State where
  /-- R9, R45, R46: the parameters, which no step writes (log 1). -/
  cfg           : Config
  /-- R20 `PHASE`. -/
  phase         : Phase
  /-- R23 `RX_STATE`. -/
  rxState       : RxState
  /-- R25 `RAW_LEN`. -/
  rawLen        : Nat
  /-- R26 `CONTENT_LEN`. -/
  contentLen    : Nat
  /-- R27 `CMD`. -/
  cmd           : Byte
  /-- R28 `EXP_CRC`. -/
  expCrc        : BitVec 16
  /-- R29 `DCMD`. -/
  dcmd          : Byte
  /-- R29 `DLEN`. -/
  dlen          : Nat
  /-- R30 `TX_STATE`. -/
  txState       : TxState
  /-- R31 `TX_LEN`. -/
  txLen         : Nat
  /-- R31 `TX_IDX`. -/
  txIdx         : Nat
  /-- R32 `DE`. -/
  de            : Bool
  /-- R33 `CAP_KIND`. -/
  capKind       : CapKind
  /-- R42 `cap_req_ch`. -/
  capCh         : Nat
  /-- R42 `cap_req_port`. -/
  capPort       : Nat
  /-- R42 `cap_req_value`. -/
  capValue      : List Byte
  /-- R36 `DEV_ADDR`. -/
  devAddr       : BitVec 5
  /-- R50 `RAW`. -/
  raw           : Memory
  /-- R51 `CONTENT`. -/
  content       : Memory
  /-- R52 `TXBUF`. -/
  txbuf         : Memory
  /-- R44, R261: the level of `rst` at the last instant (log 15). -/
  rst           : Bool
  /-- R246 `tickCounter`. -/
  tickCounter   : Nat
  /-- R246 `uptimeSeconds`. -/
  uptimeSeconds : Nat
  /-- R60: the uptimes the scheduler has held since the acceptance of the last frame and holds no longer, the oldest first;
  recorded while `PHASE = DISPATCH` (log 24). -/
  earlierUptimes : List Nat
  inputs        : List Event
  emitted       : List Emission
  draws         : Nat
  deriving DecidableEq, Repr

/-- Why the model stops where the spec gives no value or no effect. -/
inductive Fault where
  /-- A cell at an index outside its buffer's capacity (R50 to R52), which does not exist. Raised by `memRead` and
  `memWrite`. Safe: no state that meets the invariant reaches it. -/
  | noSuchCell (buf : BufId) (index : Nat)
  /-- A read of a cell that holds no defined value (R49). Raised by `memRead`. Safe: unreachable under the invariant. -/
  | unspecifiedCell (buf : BufId) (index : Nat)
  /-- A read of a register outside the states in which it holds a value (R27 to R29, R41, R49). Raised by the register reads
  of Machine/Ops.lean. Safe: unreachable under the invariant. -/
  | unspecifiedRegister (reg : RegId)
  /-- A response content longer than `RESP_CONTENT_CAP` (R200, D20). Raised by `respond`. Safe: the spec asks for it. -/
  | responseTooLong (length : Nat)
  deriving DecidableEq, Repr

/-- Why a step has no meaning. -/
inductive Refusal where
  /-- An instruction that has no meaning in the model yet. No arm raises it. -/
  | notModelled (mnemonic : String)
  /-- Reset was released under a configuration that breaks R45 (R266, U6). Raised by `resetRelease`. Safe. -/
  | illFormedConfiguration
  /-- A dispatch of a `DCMD` outside 0x41..0x5A, which cannot occur (R161). Raised by `dispatch`. Safe. -/
  | notACommandLetter (cmd : Byte)
  deriving DecidableEq, Repr

/-- R23: the codes of the receive states. No interface observes them. -/
def RxState.code : RxState → Nat
  | .idle => 0
  | .addr0 => 1
  | .addr1 => 2
  | .sep => 3
  | .cmd => 4
  | .cstart => 5
  | .content => 6
  | .ck0 => 7
  | .ck1 => 8
  | .ck2 => 9
  | .ck3 => 10

/-- R30: the codes of the transmit states. -/
def TxState.code : TxState → Nat
  | .idle => 0
  | .pre => 1
  | .send => 2
  | .drain => 3
  | .post => 4

/-- R39, R262: the state right after reset release. The configuration is that of the spec's test vectors (log 2) and the
straps sampled are theirs, 11000b, so `DEV_ADDR` is 7 (log 8). `CMD`, `EXP_CRC`, `DCMD`, `DLEN` (log 5) and the capability
request outputs (log 6) are zero where R39 gives no value. -/
def State.reset : State where
  cfg           := testConfig
  phase         := .rx
  rxState       := .idle
  rawLen        := 0
  contentLen    := 0
  cmd           := 0
  expCrc        := 0
  dcmd          := 0
  dlen          := 0
  txState       := .idle
  txLen         := 0
  txIdx         := 0
  de            := false
  capKind       := .none
  capCh         := 0
  capPort       := 0
  capValue      := []
  devAddr       := ~~~0x18#5
  raw           := []
  content       := []
  txbuf         := []
  rst           := false
  tickCounter   := 0
  uptimeSeconds := 0
  earlierUptimes := []
  inputs        := []
  emitted       := []
  draws         := 0

end Sys2Proof.Machine
end

