-- ==== Sys2Proof/Machine/Ops.lean ====
section
/-! DEFINITION. The named operations: cells and buffers (spec/00_scope.md R13, 20_memory.md), the guarded registers
(10_state.md R27 to R29), the receive session (41_receive.md R121, R123, R138), the response path (42_commands.md R160,
43_response.md R200) with its error entry and its return (60_exceptions.md R240, R241), and the capability requests. -/

namespace Sys2Proof.Machine

/-- What a cell that is not listed reads as: no value (R49, log 7). -/
def Memory.unlisted : Option Byte := none

/-- The cell at an index. -/
def Memory.read : Memory → Nat → Option Byte
  | [], _ => Memory.unlisted
  | (i, b) :: m, a => if a = i then some b else Memory.read m a

/-- Write one cell, keeping the indices strictly rising. -/
def Memory.write : Memory → Nat → Byte → Memory
  | [], a, v => [(a, v)]
  | (i, b) :: m, a, v =>
    if a < i then (a, v) :: (i, b) :: m
    else if a = i then (a, v) :: m
    else (i, b) :: Memory.write m a v

/-- The canonical form: the indices rise strictly, and no entry is what an unlisted cell reads as. -/
def Memory.wf : Memory → Bool
  | [] => true
  | [(_, b)] => decide (some b ≠ Memory.unlisted)
  | (i, b) :: (j, c) :: m => decide (some b ≠ Memory.unlisted) && decide (i < j) && Memory.wf ((j, c) :: m)

/-- Write bytes into consecutive cells, whatever the capacity. -/
def fillFrom (m : Memory) : Nat → List Byte → Memory
  | _, [] => m
  | i, b :: bs => fillFrom (m.write i b) (i + 1) bs

/-- R50 to R52: how many bytes a buffer has. -/
def bufCap (cfg : Config) : BufId → Nat
  | .raw => cfg.rawCap
  | .content => cfg.contentCap
  | .txbuf => 11 + cfg.respContentCap

/-- The cells of a buffer. -/
def State.buf (s : State) : BufId → Memory
  | .raw => s.raw
  | .content => s.content
  | .txbuf => s.txbuf

/-- Replace the cells of a buffer. -/
def State.setBuf (s : State) : BufId → Memory → State
  | .raw, m => { s with raw := m }
  | .content, m => { s with content := m }
  | .txbuf, m => { s with txbuf := m }

/-- R50 to R52: a buffer's valid length; `CONTENT_LEN` while receiving and `DLEN` after acceptance (R51). -/
def State.validLen (s : State) : BufId → Nat
  | .raw => s.rawLen
  | .content => if s.phase = .rx then s.contentLen else s.dlen
  | .txbuf => s.txLen

/-- R13 `MemRead`, R49: only a cell below the buffer's valid length holds a value. -/
def memRead (s : State) (buf : BufId) (i : Nat) : Except Fault Byte :=
  if bufCap s.cfg buf ≤ i then .error (.noSuchCell buf i)
  else if s.validLen buf ≤ i then .error (.unspecifiedCell buf i)
  else
    match (s.buf buf).read i with
    | none => .error (.unspecifiedCell buf i)
    | some b => .ok b

/-- R13 `MemWrite`. -/
def memWrite (s : State) (buf : BufId) (i : Nat) (v : Byte) : Except Fault State :=
  if bufCap s.cfg buf ≤ i then .error (.noSuchCell buf i)
  else .ok (s.setBuf buf ((s.buf buf).write i v))

/-- The first `n` bytes of a buffer, `buf[0..n)` of R11. -/
def readPrefix (s : State) (buf : BufId) : Nat → Except Fault (List Byte)
  | 0 => .ok []
  | n + 1 =>
    match readPrefix s buf n with
    | .error f => .error f
    | .ok bytes =>
      match memRead s buf n with
      | .error f => .error f
      | .ok b => .ok (bytes ++ [b])

/-- Write bytes from an index on, one by one (the loop of R200). -/
def writeFrom (s : State) (buf : BufId) : Nat → List Byte → Except Fault State
  | _, [] => .ok s
  | i, b :: bs =>
    match memWrite s buf i b with
    | .error f => .error f
    | .ok s' => writeFrom s' buf (i + 1) bs

/-- R13 `Append(RAW, b)`. -/
def appendRaw (b : Byte) (s : State) : Except Fault State :=
  match memWrite s .raw s.rawLen b with
  | .error f => .error f
  | .ok s' => .ok { s' with rawLen := s.rawLen + 1 }

/-- R13 `Append(CONTENT, b)`. -/
def appendContent (b : Byte) (s : State) : Except Fault State :=
  match memWrite s .content s.contentLen b with
  | .error f => .error f
  | .ok s' => .ok { s' with contentLen := s.contentLen + 1 }

/-- R27: `CMD` holds a value once a letter has been recorded in the current session. -/
def RxState.hasCmd : RxState → Bool
  | .cstart | .content | .ck0 | .ck1 | .ck2 | .ck3 => true
  | .idle | .addr0 | .addr1 | .sep | .cmd => false

/-- R28: `EXP_CRC` holds a value only while `RX_STATE` is `CK0`..`CK3`. -/
def RxState.hasExpCrc : RxState → Bool
  | .ck0 | .ck1 | .ck2 | .ck3 => true
  | .idle | .addr0 | .addr1 | .sep | .cmd | .cstart | .content => false

/-- R27, R49. -/
def readCmd (s : State) : Except Fault Byte :=
  if s.rxState.hasCmd then .ok s.cmd else .error (.unspecifiedRegister .cmd)

/-- R28, R49. -/
def readExpCrc (s : State) : Except Fault (BitVec 16) :=
  if s.rxState.hasExpCrc then .ok s.expCrc else .error (.unspecifiedRegister .expCrc)

/-- R29, R49: `DCMD` is read only in phases `DISPATCH`, `CAP_WAIT` and `TX`. -/
def readDcmd (s : State) : Except Fault Byte :=
  if s.phase = .rx then .error (.unspecifiedRegister .dcmd) else .ok s.dcmd

/-- R29, R49: `DLEN` is read only in phases `DISPATCH`, `CAP_WAIT` and `TX`. -/
def readDlen (s : State) : Except Fault Nat :=
  if s.phase = .rx then .error (.unspecifiedRegister .dlen) else .ok s.dlen

/-- R121 `abort`. -/
def State.abort (s : State) : State :=
  { s with rxState := .idle, rawLen := 0, contentLen := 0 }

/-- R123: an SOH starts a session. -/
def startSession (s : State) : Except Fault State :=
  match memWrite s .raw 0 soh with
  | .error f => .error f
  | .ok s' => .ok { s' with rawLen := 1, contentLen := 0, rxState := .addr0 }

/-- R138 `accept`. The interval in which an uptime snapshot may fall begins here (R60, log 24). -/
def accept (s : State) : Except Fault State :=
  match readCmd s with
  | .error f => .error f
  | .ok c =>
    .ok { s with dcmd := c, dlen := s.contentLen, rxState := .idle, rawLen := 0, contentLen := 0
                 phase := .dispatch, earlierUptimes := [] }

/-- R60: the values the scheduler has held since the acceptance of the frame, the oldest first and the present one last. -/
def State.uptimesHeld (s : State) : List Nat := s.earlierUptimes ++ [s.uptimeSeconds]

/-- R60, U7: the value held at the instant the snapshot falls on, which is any instant between the acceptance of the frame and
the dispatch step. Where the uptime has changed in between, which one is a free value (log 24). -/
def State.sampledUptime (s : State) : Nat :=
  match s.earlierUptimes with
  | [] => s.uptimeSeconds
  | _ :: _ => s.uptimesHeld.getD (Config.snapshotInstant s.draws % s.uptimesHeld.length) s.uptimeSeconds

/-- R43, R60 `snapshot uptime`: one untorn value of `UPTIME_W` bits (log 22). -/
def State.snapshotUptime (s : State) : Nat := s.sampledUptime % 2 ^ s.cfg.uptimeW

/-- The counter of free values moves on where the snapshot has drawn one (log 24). -/
def State.afterSnapshot (s : State) : State :=
  match s.earlierUptimes with
  | [] => s
  | _ :: _ => { s with draws := s.draws + 1 }

/-- R200: what building a response does to the sequencer once `TXBUF` is filled, and R160 `PHASE <- TX`. -/
def State.beginTx (s : State) (len : Nat) : State :=
  { s with txLen := len, txIdx := 0, de := true, txState := .pre, phase := .tx }

/-- R160 `respond(content)`, R200 `encode`: build the response frame and enter the transmit phase. A content longer than
`RESP_CONTENT_CAP` faults (D20, log 12). -/
def respond (content : List Byte) (s : State) : Except Fault State :=
  if s.cfg.respContentCap < content.length then .error (.responseTooLong content.length)
  else
    match readDcmd s with
    | .error f => .error f
    | .ok cmd =>
      match writeFrom s .txbuf 0 (responseFrame s.cfg.crc cmd content) with
      | .error f => .error f
      | .ok s' => .ok (s'.beginTx (responseFrame s.cfg.crc cmd content).length)

/-- R85: the four errors that are reported on the wire. -/
inductive ErrorName where
  | parameterError
  | invalidChannel
  | invalidPort
  | channelReadOnly
  deriving DecidableEq, Repr

/-- R85: NAK and the ASCII name. -/
def errorContent : ErrorName → List Byte
  | .parameterError =>
    [0x15, 0x50, 0x41, 0x52, 0x41, 0x4D, 0x45, 0x54, 0x45, 0x52, 0x5F, 0x45, 0x52, 0x52, 0x4F, 0x52]
  | .invalidChannel =>
    [0x15, 0x49, 0x4E, 0x56, 0x41, 0x4C, 0x49, 0x44, 0x5F, 0x43, 0x48, 0x41, 0x4E, 0x4E, 0x45, 0x4C]
  | .invalidPort =>
    [0x15, 0x49, 0x4E, 0x56, 0x41, 0x4C, 0x49, 0x44, 0x5F, 0x50, 0x4F, 0x52, 0x54]
  | .channelReadOnly =>
    [0x15, 0x43, 0x48, 0x41, 0x4E, 0x4E, 0x45, 0x4C, 0x5F, 0x52, 0x45, 0x41, 0x44, 0x5F, 0x4F, 0x4E, 0x4C, 0x59]

/-- R240, the block's analogue of taking an exception: `respond(error(NAME))`. No state is saved, no mode changes, and
nothing but the transmit path and `PHASE` changes. -/
def enterError (e : ErrorName) (s : State) : Except Fault State := respond (errorContent e) s

/-- R208, R241, the return: the line is released and the engine receives again. -/
def State.returnToRx (s : State) : State :=
  { s with de := false, txState := .idle, txLen := 0, txIdx := 0, phase := .rx }

/-- R160 `no_response`. -/
def State.noResponse (s : State) : State := { s with phase := .rx }

/-- R165 `request read(ch, p)`: the request stands on the outputs until it is answered, and is handed over once. -/
def State.requestRead (s : State) (channel port : Nat) : State :=
  { s with capKind := .read, capCh := channel, capPort := port, phase := .capWait
           emitted := s.emitted ++ [.capRead channel port] }

/-- R166 `request write(ch, p, value)`. -/
def State.requestWrite (s : State) (channel port : Nat) (value : List Byte) : State :=
  { s with capKind := .write, capCh := channel, capPort := port, capValue := value, phase := .capWait
           emitted := s.emitted ++ [.capWrite channel port value] }

/-- A step's outcome from an operation's. -/
def toOutcome : Except Fault State → Host.Outcome State Fault Refusal
  | .ok s => .next s
  | .error f => .fault f

end Sys2Proof.Machine
end

