-- ==== Sys2Proof/Machine/Capability.lean ====
section
/-! DEFINITION. The capability answers (spec/42_commands.md R168 to R170). -/

namespace Sys2Proof.Machine

/-- R168, R170: a read answer. The content is sent whether `ok` is 1 or 0. -/
def readAnswer (_ok : Bool) (content : List Byte) (s : State) : Except Fault State :=
  respond content { s with capKind := .none }

/-- R169: a write answer. The acknowledgement is sent whether `ok` is 1 or 0. -/
def writeAnswer (_ok : Bool) (s : State) : Except Fault State :=
  respond [ack] { s with capKind := .none }

/-- R173, R239: in `PHASE = CAP_WAIT` only a capability response has an effect. -/
def capabilityAnswer (i : Inputs) (s : State) : Except Fault State :=
  if i.capRspValid then
    match s.capKind with
    | .none => .ok s
    | .read => readAnswer i.capRspOk i.capRspContent s
    | .write => writeAnswer i.capRspOk s
  else .ok s

end Sys2Proof.Machine
end

