-- ==== Sys2Proof/Machine/Nop.lean ====
section
/-! DEFINITION. The 22 letters that spell no operation (spec/42_commands.md R167): the content is not read, nothing is sent,
and the engine receives again. -/

namespace Sys2Proof.Machine

/-- R167 for the letter `A`. -/
def execNopA (_content : List Byte) (s : State) : Host.Outcome State Fault Refusal := .next s.noResponse

/-- R167 for the letter `B`. -/
def execNopB (_content : List Byte) (s : State) : Host.Outcome State Fault Refusal := .next s.noResponse

/-- R167 for the letter `C`. -/
def execNopC (_content : List Byte) (s : State) : Host.Outcome State Fault Refusal := .next s.noResponse

/-- R167 for the letter `E`. -/
def execNopE (_content : List Byte) (s : State) : Host.Outcome State Fault Refusal := .next s.noResponse

/-- R167 for the letter `F`. -/
def execNopF (_content : List Byte) (s : State) : Host.Outcome State Fault Refusal := .next s.noResponse

/-- R167 for the letter `G`. -/
def execNopG (_content : List Byte) (s : State) : Host.Outcome State Fault Refusal := .next s.noResponse

/-- R167 for the letter `H`. -/
def execNopH (_content : List Byte) (s : State) : Host.Outcome State Fault Refusal := .next s.noResponse

/-- R167 for the letter `I`. -/
def execNopI (_content : List Byte) (s : State) : Host.Outcome State Fault Refusal := .next s.noResponse

/-- R167 for the letter `J`. -/
def execNopJ (_content : List Byte) (s : State) : Host.Outcome State Fault Refusal := .next s.noResponse

/-- R167 for the letter `K`. -/
def execNopK (_content : List Byte) (s : State) : Host.Outcome State Fault Refusal := .next s.noResponse

/-- R167 for the letter `L`. -/
def execNopL (_content : List Byte) (s : State) : Host.Outcome State Fault Refusal := .next s.noResponse

/-- R167 for the letter `M`. -/
def execNopM (_content : List Byte) (s : State) : Host.Outcome State Fault Refusal := .next s.noResponse

/-- R167 for the letter `N`. -/
def execNopN (_content : List Byte) (s : State) : Host.Outcome State Fault Refusal := .next s.noResponse

/-- R167 for the letter `O`. -/
def execNopO (_content : List Byte) (s : State) : Host.Outcome State Fault Refusal := .next s.noResponse

/-- R167 for the letter `Q`. -/
def execNopQ (_content : List Byte) (s : State) : Host.Outcome State Fault Refusal := .next s.noResponse

/-- R167 for the letter `S`. -/
def execNopS (_content : List Byte) (s : State) : Host.Outcome State Fault Refusal := .next s.noResponse

/-- R167 for the letter `T`. -/
def execNopT (_content : List Byte) (s : State) : Host.Outcome State Fault Refusal := .next s.noResponse

/-- R167 for the letter `U`. -/
def execNopU (_content : List Byte) (s : State) : Host.Outcome State Fault Refusal := .next s.noResponse

/-- R167 for the letter `V`. -/
def execNopV (_content : List Byte) (s : State) : Host.Outcome State Fault Refusal := .next s.noResponse

/-- R167 for the letter `X`. -/
def execNopX (_content : List Byte) (s : State) : Host.Outcome State Fault Refusal := .next s.noResponse

/-- R167 for the letter `Y`. -/
def execNopY (_content : List Byte) (s : State) : Host.Outcome State Fault Refusal := .next s.noResponse

/-- R167 for the letter `Z`. -/
def execNopZ (_content : List Byte) (s : State) : Host.Outcome State Fault Refusal := .next s.noResponse

end Sys2Proof.Machine
end

