-- ==== Sys2Proof/Machine/Operands.lean ====
section
/-! DEFINITION. The operand forms of the commands (spec/30_encoding.md R81). `none` is a form that `PARAMETER_ERROR` answers
(R231). -/

namespace Sys2Proof.Machine

/-- R81, row `D`: the content is one decimal field. -/
def operandD (cfg : Config) (content : List Byte) : Option Nat := parseNum cfg.numMax content

/-- R81, row `R`: two decimal fields with one `':'` between them. A further `':'` is no digit, so the second field fails. -/
def operandR (cfg : Config) (content : List Byte) : Option (Nat × Nat) :=
  match split1 content with
  | none => none
  | some (a, b) =>
    if b.contains colon then none
    else
      match parseNum cfg.numMax a, parseNum cfg.numMax b with
      | some channel, some port => some (channel, port)
      | _, _ => none

/-- R81, row `W`: two decimal fields, each ended by a `':'`, and a value that is every byte behind them. -/
def operandW (cfg : Config) (content : List Byte) : Option (Nat × Nat × List Byte) :=
  match split1 content with
  | none => none
  | some (a, rest) =>
    match split1 rest with
    | none => none
    | some (b, value) =>
      match parseNum cfg.numMax a, parseNum cfg.numMax b with
      | some channel, some port => some (channel, port, value)
      | _, _ => none

end Sys2Proof.Machine
end

