-- ==== Sys2Proof/Machine/Port.lean ====
section
/-! DEFINITION. The commands `R` and `W` (spec/42_commands.md R165, R166). -/

namespace Sys2Proof.Machine

/-- R165 `R`, with the checks in the order of R162. -/
def execR (content : List Byte) (s : State) : Host.Outcome State Fault Refusal :=
  match operandR s.cfg content with
  | none => toOutcome (enterError .parameterError s)
  | some (channel, port) =>
    match s.cfg.registry[channel]? with
    | none => toOutcome (enterError .invalidChannel s)
    | some d =>
      if d.portCount ≤ port then toOutcome (enterError .invalidPort s)
      else .next (s.requestRead channel port)

/-- R166 `W`, with the checks in the order of R162. The value is not checked (R171). -/
def execW (content : List Byte) (s : State) : Host.Outcome State Fault Refusal :=
  match operandW s.cfg content with
  | none => toOutcome (enterError .parameterError s)
  | some (channel, port, value) =>
    match s.cfg.registry[channel]? with
    | none => toOutcome (enterError .invalidChannel s)
    | some d =>
      if d.access = .readOnly then toOutcome (enterError .channelReadOnly s)
      else if d.portCount ≤ port then toOutcome (enterError .invalidPort s)
      else .next (s.requestWrite channel port value)

end Sys2Proof.Machine
end

