-- ==== Sys2Proof/Machine/Query.lean ====
section
/-! DEFINITION. The commands `P` and `D` (spec/42_commands.md R163, R164). -/

namespace Sys2Proof.Machine

/-- R163 `P`: the content is ignored. The uptime is a snapshot (R60). -/
def execP (_content : List Byte) (s : State) : Host.Outcome State Fault Refusal :=
  toOutcome (respond (pingContent s.cfg s.snapshotUptime) s.afterSnapshot)

/-- R164 `D`, with the checks in the order of R162. -/
def execD (content : List Byte) (s : State) : Host.Outcome State Fault Refusal :=
  match operandD s.cfg content with
  | none => toOutcome (enterError .parameterError s)
  | some channel =>
    match s.cfg.registry[channel]? with
    | none => toOutcome (enterError .invalidChannel s)
    | some d => toOutcome (respond (describeContent s.cfg d) s)

end Sys2Proof.Machine
end

