-- ==== Sys2Proof/Machine/Dispatch.lean ====
section
/-! DEFINITION. The meaning of each instruction (spec/42_commands.md R161). -/

namespace Sys2Proof.Machine

def exec (i : Instr) (s : State) : Host.Outcome State Fault Refusal :=
  match i with
  | .p content => Sys2Proof.Machine.execP content s
  | .d content => Sys2Proof.Machine.execD content s
  | .r content => Sys2Proof.Machine.execR content s
  | .w content => Sys2Proof.Machine.execW content s
  | .nopA content => Sys2Proof.Machine.execNopA content s
  | .nopB content => Sys2Proof.Machine.execNopB content s
  | .nopC content => Sys2Proof.Machine.execNopC content s
  | .nopE content => Sys2Proof.Machine.execNopE content s
  | .nopF content => Sys2Proof.Machine.execNopF content s
  | .nopG content => Sys2Proof.Machine.execNopG content s
  | .nopH content => Sys2Proof.Machine.execNopH content s
  | .nopI content => Sys2Proof.Machine.execNopI content s
  | .nopJ content => Sys2Proof.Machine.execNopJ content s
  | .nopK content => Sys2Proof.Machine.execNopK content s
  | .nopL content => Sys2Proof.Machine.execNopL content s
  | .nopM content => Sys2Proof.Machine.execNopM content s
  | .nopN content => Sys2Proof.Machine.execNopN content s
  | .nopO content => Sys2Proof.Machine.execNopO content s
  | .nopQ content => Sys2Proof.Machine.execNopQ content s
  | .nopS content => Sys2Proof.Machine.execNopS content s
  | .nopT content => Sys2Proof.Machine.execNopT content s
  | .nopU content => Sys2Proof.Machine.execNopU content s
  | .nopV content => Sys2Proof.Machine.execNopV content s
  | .nopX content => Sys2Proof.Machine.execNopX content s
  | .nopY content => Sys2Proof.Machine.execNopY content s
  | .nopZ content => Sys2Proof.Machine.execNopZ content s

end Sys2Proof.Machine
end

