-- ==== Sys2Proof/Machine/Receive.lean ====
section
/-! DEFINITION. The receive state machine (spec/41_receive.md): one definition per rule, chosen in the order of R120. -/

namespace Sys2Proof.Machine

/-- R122: a byte with a framing error is discarded. -/
def rxFramingError (s : State) : Except Fault State := .ok s

/-- R123, R124: an SOH (re)starts the session, except in `ADDR0` under `ToIdle`, where it aborts. -/
def rxSoh (s : State) : Except Fault State :=
  if s.rxState = .addr0 ∧ s.cfg.sohAtAddr0 = .toIdle then .ok s.abort else startSession s

/-- R125: `IDLE` discards every other byte. -/
def rxIdle (s : State) : Except Fault State := .ok s

/-- R126 to R128, R130: append the expected byte and go on, or abort. -/
def rxExpect (want : Byte) (after : RxState) (b : Byte) (s : State) : Except Fault State :=
  if b = want then
    match appendRaw b s with
    | .error f => .error f
    | .ok s' => .ok { s' with rxState := after }
  else .ok s.abort

/-- R126. -/
def rxAddr0 (b : Byte) (s : State) : Except Fault State := rxExpect (addrCh0 s.devAddr) .addr1 b s

/-- R127. -/
def rxAddr1 (b : Byte) (s : State) : Except Fault State := rxExpect (addrCh1 s.devAddr) .sep b s

/-- R128. -/
def rxSep (b : Byte) (s : State) : Except Fault State := rxExpect colon .cmd b s

/-- R129: whether a byte is a command letter. -/
def isLetter (b : Byte) : Bool := decide (0x41 ≤ b.toNat) && decide (b.toNat ≤ 0x5A)

/-- R129. -/
def rxCmd (b : Byte) (s : State) : Except Fault State :=
  if isLetter b then
    match appendRaw b s with
    | .error f => .error f
    | .ok s' => .ok { s' with cmd := b, rxState := .cstart }
  else .ok s.abort

/-- R130. -/
def rxCstart (b : Byte) (s : State) : Except Fault State := rxExpect stx .content b s

/-- R131: the raw buffer is full. -/
def rxContentFull (s : State) : Except Fault State := .ok s.abort

/-- R132: end of content. -/
def rxContentEnd (s : State) : Except Fault State :=
  match appendRaw etx s with
  | .error f => .error f
  | .ok s' =>
    match readPrefix s' .raw s'.rawLen with
    | .error f => .error f
    | .ok bytes => .ok { s' with expCrc := crc16 s.cfg.crc bytes, rxState := .ck0 }

/-- R133: a data byte, kept in `CONTENT` while there is room. -/
def rxContentData (b : Byte) (s : State) : Except Fault State :=
  match appendRaw b s with
  | .error f => .error f
  | .ok s' => if s.contentLen < s.cfg.contentCap then appendContent b s' else .ok s'

/-- R131 to R133, in the order of R120. -/
def rxContent (b : Byte) (s : State) : Except Fault State :=
  if s.rawLen = s.cfg.rawCap then rxContentFull s
  else if b = etx then rxContentEnd s
  else rxContentData b s

/-- R134 to R137: compare one checksum digit, the nibble of `EXP_CRC` that begins at bit `lo`. -/
def rxDigit (lo : Nat) (matched : State → Except Fault State) (b : Byte) (s : State) : Except Fault State :=
  match readExpCrc s with
  | .error f => .error f
  | .ok crc => if b = hex1 (crc.extractLsb' lo 4) then matched s else .ok s.abort

/-- R134. -/
def rxCk0 (b : Byte) (s : State) : Except Fault State := rxDigit 12 (fun s => .ok { s with rxState := .ck1 }) b s

/-- R135. -/
def rxCk1 (b : Byte) (s : State) : Except Fault State := rxDigit 8 (fun s => .ok { s with rxState := .ck2 }) b s

/-- R136. -/
def rxCk2 (b : Byte) (s : State) : Except Fault State := rxDigit 4 (fun s => .ok { s with rxState := .ck3 }) b s

/-- R137. -/
def rxCk3 (b : Byte) (s : State) : Except Fault State := rxDigit 0 accept b s

/-- R120: the rule of the receive state, for a good byte other than SOH. -/
def rxByState (b : Byte) (s : State) : Except Fault State :=
  match s.rxState with
  | .idle => rxIdle s
  | .addr0 => rxAddr0 b s
  | .addr1 => rxAddr1 b s
  | .sep => rxSep b s
  | .cmd => rxCmd b s
  | .cstart => rxCstart b s
  | .content => rxContent b s
  | .ck0 => rxCk0 b s
  | .ck1 => rxCk1 b s
  | .ck2 => rxCk2 b s
  | .ck3 => rxCk3 b s

/-- R120: the receive step, in `PHASE = RX`. -/
def receive (b : Byte) (ferr : Bool) (s : State) : Except Fault State :=
  if ferr then rxFramingError s
  else if b = soh then rxSoh s
  else rxByState b s

end Sys2Proof.Machine
end

