-- ==== Sys2Proof/Machine/Reset.lean ====
section
/-! DEFINITION. Reset (spec/70_reset_and_hazards.md R260 to R265) and the tick scheduler (60_exceptions.md R246). -/

namespace Sys2Proof.Machine

/-- R261: while `rst` is 1, every piece of state takes its reset value. The buffers hold no defined value then, and the
registers R39 calls unspecified take the values the model names (log 5, 6). The scheduler is at (0, 0) (R246, log 4), and
no frame is being decoded, so no earlier uptime is held (log 24). -/
def resetAssert (s : State) : State :=
  { s with
    phase := .rx, rxState := .idle, rawLen := 0, contentLen := 0
    cmd := 0, expCrc := 0, dcmd := 0, dlen := 0
    txState := .idle, txLen := 0, txIdx := 0, de := false
    capKind := .none, capCh := 0, capPort := 0, capValue := []
    raw := [], content := [], txbuf := []
    rst := true, tickCounter := 0, uptimeSeconds := 0, earlierUptimes := [] }

/-- R262: the address sampled from the straps; R268: "any value in 0..31" where a strap changes at this instant. -/
def sampleStraps (i : Inputs) (s : State) : State :=
  if i.strapsSettled then { s with devAddr := ~~~i.addrStrapN }
  else { s with devAddr := Config.unsettledStrapAddr s.draws, draws := s.draws + 1 }

/-- R261, R262: `rst` falls. A configuration that breaks R45 is refused here (R266, log 11). -/
def resetRelease (i : Inputs) (s : State) : Host.Outcome State Fault Refusal :=
  if configOk s.cfg then .next { sampleStraps i s with rst := false }
  else .refused .illFormedConfiguration

/-- R60: in `PHASE = DISPATCH` a firing that changes the uptime leaves the old value among those the scheduler has held since
the acceptance of the frame (log 24). -/
def recordUptime (s : State) : List Nat :=
  if s.phase = .dispatch ∧ (s.tickCounter + 1) % s.cfg.ticksPerSecond = 0 then s.earlierUptimes ++ [s.uptimeSeconds]
  else s.earlierUptimes

/-- R246: one firing of the tick scheduler. While `rst` is 1 the scheduler stays at its reset state (log 4). -/
def schedulerTick (s : State) : State :=
  if s.rst then s
  else
    { s with
      tickCounter := (s.tickCounter + 1) % s.cfg.ticksPerSecond
      uptimeSeconds :=
        if (s.tickCounter + 1) % s.cfg.ticksPerSecond = 0 then (s.uptimeSeconds + 1) % 2 ^ s.cfg.uptimeW
        else s.uptimeSeconds
      earlierUptimes := recordUptime s }

end Sys2Proof.Machine
end

