-- ==== Sys2Proof/Machine/Flags.lean ====
section
/-! DEFINITION. The block has no flags or condition codes (spec/10_state.md R34). What stands here instead are its interface
outputs (R40 to R42), each a function of the state. -/

namespace Sys2Proof.Machine

/-- R40, R261: `rx_ready`. -/
def State.rxReady (s : State) : Bool := !s.rst && decide (s.phase = .rx)

/-- R41, R261: `tx_valid`. -/
def State.txValid (s : State) : Bool := !s.rst && decide (s.txState = .send)

/-- R41: `tx_data` is `TXBUF[TX_IDX]` in `TX_SEND` and unspecified in every other state. -/
def txData (s : State) : Except Fault Byte :=
  if s.txState = .send then memRead s .txbuf s.txIdx else .error (.unspecifiedRegister .txData)

/-- R32, R41, R261: `de`. -/
def State.deOut (s : State) : Bool := !s.rst && s.de

/-- R42, R261: `cap_req_valid`. -/
def State.capReqValid (s : State) : Bool := !s.rst && decide (s.phase = .capWait)

/-- R42: the request outputs while `cap_req_valid` is 1; `cap_req_value` belongs to a write request only. -/
def State.capRequest (s : State) : Option Emission :=
  if s.capReqValid then
    match s.capKind with
    | .none => none
    | .read => some (.capRead s.capCh s.capPort)
    | .write => some (.capWrite s.capCh s.capPort s.capValue)
  else none

end Sys2Proof.Machine
end

