-- ==== Sys2Proof/Machine/Transmit.lean ====
section
/-! DEFINITION. The half-duplex transmit sequencer (spec/43_response.md R205 to R208). -/

namespace Sys2Proof.Machine

/-- R205: the pre-transmit settle delay has elapsed. -/
def txPreDone (s : State) : State := { s with txState := .send }

/-- R206: the UART takes the byte offered. -/
def txTakeByte (s : State) : Except Fault State :=
  match txData s with
  | .error f => .error f
  | .ok b =>
    .ok { s with txIdx := s.txIdx + 1, txState := if s.txIdx + 1 = s.txLen then .drain else .send
                 emitted := s.emitted ++ [.txByte b] }

/-- R207: the UART has shifted out every byte. -/
def txDrained (s : State) : State := { s with txState := .post }

/-- R208: the post-transmit settle delay has elapsed. -/
def txPostDone (s : State) : State := s.returnToRx

/-- R205 to R208, R239: in `PHASE = TX` only the event that `TX_STATE` names has an effect. -/
def transmit (i : Inputs) (s : State) : Except Fault State :=
  match s.txState with
  | .idle => .ok s
  | .pre => .ok (if i.preDone then txPreDone s else s)
  | .send => if i.txReady then txTakeByte s else .ok s
  | .drain => .ok (if i.txComplete then txDrained s else s)
  | .post => .ok (if i.postDone then txPostDone s else s)

end Sys2Proof.Machine
end

