-- ==== Sys2Proof/Machine/Engine.lean ====
section
/-! DEFINITION. The engine (spec/10_state.md R20): the dispatch step, the one event each phase waits for (60_exceptions.md
R239), and what one event of the environment does. -/

namespace Sys2Proof.Machine

/-- R160: the accepted frame's command word, `DCMD` and `CONTENT[0..DLEN)`. -/
def fetch (s : State) : Except Fault (List Byte) :=
  match readDcmd s with
  | .error f => .error f
  | .ok cmd =>
    match readDlen s with
    | .error f => .error f
    | .ok n =>
      match readPrefix s .content n with
      | .error f => .error f
      | .ok content => .ok (cmd :: content)

/-- R160, R161: the dispatch step. Every value of `DCMD` that can occur decodes (log 14). -/
def dispatch (s : State) : Host.Outcome State Fault Refusal :=
  match fetch s with
  | .error f => .fault f
  | .ok bytes =>
    match decode bytes with
    | .error _ => .refused (.notACommandLetter s.dcmd)
    | .ok i => exec i s

/-- R120, R140: in `PHASE = RX` only a receive event has an effect. -/
def receiveStep (i : Inputs) (s : State) : Except Fault State :=
  if i.rxValid then receive i.rxData i.rxFerr s else .ok s

/-- R239: one instant's events in each phase. An event the phase does not wait for has no effect. -/
def engineStep (i : Inputs) (s : State) : Host.Outcome State Fault Refusal :=
  match s.phase with
  | .rx => toOutcome (receiveStep i s)
  | .dispatch => dispatch s
  | .capWait => toOutcome (capabilityAnswer i s)
  | .tx => toOutcome (transmit i s)

/-- R239, R242, R261: reset wins over every other event; the instant at which `rst` falls samples the straps and does
nothing else (log 15). -/
def instantStep (i : Inputs) (s : State) : Host.Outcome State Fault Refusal :=
  if i.rst then .next (resetAssert s)
  else if s.rst then resetRelease i s
  else engineStep i s

/-- R140, R160, R173: with no event, a dispatch still runs; everything else holds, and the hold is a next state (log 3). -/
def quietStep (s : State) : Host.Outcome State Fault Refusal :=
  if s.rst then .next s
  else
    match s.phase with
    | .dispatch => dispatch s
    | .rx | .capWait | .tx => .next s

/-- R3: one step, for the first of the environment's events still to come. -/
def engine (s : State) : Host.Outcome State Fault Refusal :=
  match s.inputs with
  | [] => quietStep s
  | .tick :: rest => .next (schedulerTick { s with inputs := rest })
  | .instant i :: rest => instantStep i { s with inputs := rest }

/-- The state in which a frame with this command word has just been accepted and nothing else is to come: the dispatch
step is next, with no firing since the acceptance (log 13). -/
def placeCommand (s : State) : List Byte → State
  | [] => s
  | cmd :: content =>
    { s with rst := false, phase := .dispatch, dcmd := cmd, dlen := content.length
             content := fillFrom [] 0 content, earlierUptimes := [], inputs := [] }

end Sys2Proof.Machine
end

