-- ==== Sys2Proof/Machine/Step.lean ====
section
/-! DEFINITION. The step, and the state whose next step runs a given instruction. -/

namespace Sys2Proof.Machine

/-- R3: one step of the block. -/
def step (s : State) : Host.Outcome State Fault Refusal := engine s

/-- An accepted frame placed where the dispatch step reads it: `DCMD`, `DLEN` and `CONTENT`, in `PHASE = DISPATCH`
(log 13). -/
def State.withFetchWord (s : State) (nbits w : Nat) : State := placeCommand s (tableWordBytes nbits w)

end Sys2Proof.Machine
end

