-- ==== Sys2Proof/Safety.lean ====
section
/-! DEFINITION. The words the statements use: the invariant of the block (the ranges and couplings that spec/10_state.md R25
to R33, R36, R42, R48 give its registers, and what its buffers hold), the provider's obligation (R42), runs over a list of
events, and what a command step leaves. -/

namespace Sys2Proof.Safety
open Sys2Proof.Machine

/-- The bytes listed below index `n`, in index order. -/
def bytesBelow (m : Memory) (n : Nat) : List Byte := (List.range n).filterMap (Memory.read m)

/-- Content bytes as the receiver can store them (R84): neither SOH nor ETX. -/
def carriable (content : List Byte) : Bool := content.all fun b => b != soh && b != etx

/-- Memory in its canonical form. -/
def memoryOk (s : State) : Bool := Memory.wf s.raw && Memory.wf s.content && Memory.wf s.txbuf

/-- R25, R26, R29, R31, R43, R60, R246, R48: every count is in its range. -/
def rangesOk (s : State) : Bool :=
  decide (s.rawLen ≤ s.cfg.rawCap) && decide (s.contentLen ≤ s.cfg.contentCap) && decide (s.dlen ≤ s.cfg.contentCap)
    && decide (s.txLen ≤ 11 + s.cfg.respContentCap) && decide (s.txIdx ≤ s.txLen)
    && decide (s.tickCounter < s.cfg.ticksPerSecond) && decide (s.uptimeSeconds < 2 ^ s.cfg.uptimeW)
    && s.earlierUptimes.all (fun u => decide (u < 2 ^ s.cfg.uptimeW))

/-- The first `n` bytes a session consumes: SOH, the node's address, `':'`, the letter, STX (R126 to R130). -/
def sessionHeader (s : State) (n : Nat) : List Byte :=
  [soh, addrCh0 s.devAddr, addrCh1 s.devAddr, colon, s.cmd, stx].take n

/-- What the session holds after `content` has arrived behind the header (R133, R145). -/
def contentHeld (s : State) (content : List Byte) : Bool :=
  carriable content && isLetter s.cmd
    && decide (s.contentLen = min content.length s.cfg.contentCap)
    && decide (bytesBelow s.content s.contentLen = content.take s.cfg.contentCap)

/-- R23 to R28, R50, R51: what the receive session holds in each receive state. -/
def sessionOk (s : State) : Bool :=
  let held := bytesBelow s.raw s.rawLen
  match s.rxState with
  | .idle => decide (s.rawLen = 0) && decide (s.contentLen = 0)
  | .addr0 => decide (s.rawLen = 1) && decide (s.contentLen = 0) && decide (held = sessionHeader s 1)
  | .addr1 => decide (s.rawLen = 2) && decide (s.contentLen = 0) && decide (held = sessionHeader s 2)
  | .sep => decide (s.rawLen = 3) && decide (s.contentLen = 0) && decide (held = sessionHeader s 3)
  | .cmd => decide (s.rawLen = 4) && decide (s.contentLen = 0) && decide (held = sessionHeader s 4)
  | .cstart =>
    decide (s.rawLen = 5) && decide (s.contentLen = 0) && decide (held = sessionHeader s 5) && isLetter s.cmd
  | .content =>
    decide (6 ≤ s.rawLen) && decide (held.length = s.rawLen) && decide (held = sessionHeader s 6 ++ held.drop 6)
      && contentHeld s (held.drop 6)
  | .ck0 | .ck1 | .ck2 | .ck3 =>
    decide (7 ≤ s.rawLen) && decide (held.length = s.rawLen)
      && decide (held = frameBody (addrCh0 s.devAddr) (addrCh1 s.devAddr) s.cmd (held.drop 6).dropLast)
      && contentHeld s (held.drop 6).dropLast
      && decide (s.expCrc = crc16 s.cfg.crc held)

/-- R29, R138, R161: the accepted frame outside `PHASE = RX`. -/
def latchOk (s : State) : Bool :=
  match s.phase with
  | .rx => true
  | .dispatch | .capWait | .tx =>
    decide (s.rxState = .idle) && isLetter s.dcmd && decide ((bytesBelow s.content s.dlen).length = s.dlen)

/-- R33, R42, R47: the outstanding capability request. -/
def requestOk (s : State) : Bool :=
  match s.phase with
  | .rx | .dispatch | .tx => decide (s.capKind = .none)
  | .capWait =>
    match s.cfg.registry[s.capCh]? with
    | none => false
    | some d =>
      decide (s.capPort < d.portCount)
        && (decide (s.capKind = .read ∧ s.dcmd = 0x52)
          || decide (s.capKind = .write ∧ s.dcmd = 0x57 ∧ d.access = .readWrite
              ∧ s.capValue.length + 4 ≤ s.cfg.contentCap))

/-- R30 to R32, R200 to R208: the transmit sequencer, the line enable, and the one response frame in `TXBUF`. -/
def transmitOk (s : State) : Bool :=
  decide (s.de = true ↔ s.txState ≠ .idle) && decide (s.txState = .idle ↔ s.phase ≠ .tx)
    && (let frame := bytesBelow s.txbuf s.txLen
        match s.txState with
        | .idle => decide (s.txLen = 0) && decide (s.txIdx = 0)
        | .pre | .send | .drain | .post =>
          decide (11 ≤ s.txLen) && decide (frame.length = s.txLen)
            && decide (frame = responseFrame s.cfg.crc s.dcmd ((frame.drop 6).take (s.txLen - 11)))
            && decide (s.txState = .pre → s.txIdx = 0) && decide (s.txState = .send → s.txIdx < s.txLen)
            && decide (s.txState = .drain ∨ s.txState = .post → s.txIdx = s.txLen))

/-- R261: while reset is held, the block stands at its reset values. -/
def resetHeldOk (s : State) : Bool :=
  !s.rst || (decide (s.phase = .rx) && decide (s.rxState = .idle))

/-- The invariant of the block: a well-formed configuration (R45) and everything above. -/
def invariant (s : State) : Bool :=
  configOk s.cfg && memoryOk s && rangesOk s && sessionOk s && latchOk s && requestOk s && transmitOk s && resetHeldOk s

/-- R42, R170: every provider answer to come keeps within `RESP_CONTENT_CAP`. -/
def providersKeepBound (s : State) : Bool :=
  s.inputs.all fun e =>
    match e with
    | .tick => true
    | .instant i => decide (i.capRspContent.length ≤ s.cfg.respContentCap)

/-- The receive event that delivers a good byte (R40, R120). -/
def goodByte (b : Byte) : Event := .instant { rxValid := true, rxData := b }

/-- The instant in which the UART takes a byte (R41). -/
def takeByte : Event := .instant { txReady := true }

/-- `s` with these events to come and no others. -/
def facing (s : State) (events : List Event) : State := { s with inputs := events }

/-- Run one step for each of these events, with nothing to come behind them. -/
def runEvents (s : State) (events : List Event) : Host.Outcome State Fault Refusal :=
  Sys2Proof.core.run events.length (facing s events)

/-- Everything of the state that the transmit path does not own is the same (R240). -/
def SameButTransmit (s t : State) : Prop :=
  t.cfg = s.cfg ∧ t.rxState = s.rxState ∧ t.rawLen = s.rawLen ∧ t.contentLen = s.contentLen ∧ t.cmd = s.cmd
    ∧ t.expCrc = s.expCrc ∧ t.dcmd = s.dcmd ∧ t.dlen = s.dlen ∧ t.capKind = s.capKind ∧ t.capCh = s.capCh
    ∧ t.capPort = s.capPort ∧ t.capValue = s.capValue ∧ t.devAddr = s.devAddr ∧ t.rst = s.rst
    ∧ t.tickCounter = s.tickCounter ∧ t.uptimeSeconds = s.uptimeSeconds ∧ t.earlierUptimes = s.earlierUptimes
    ∧ t.inputs = s.inputs
    ∧ t.emitted = s.emitted ∧ t.draws = s.draws
    ∧ (∀ a, Memory.read t.raw a = Memory.read s.raw a) ∧ (∀ a, Memory.read t.content a = Memory.read s.content a)

/-- `t` is `s` after a response with this content has been built (R160, R200): the frame stands in `TXBUF` from cell 0,
every cell of `TXBUF` behind it reads as before, the line is driven, the sequencer waits for the settle delay, and nothing
else has changed. -/
def RespondsWith (content : List Byte) (s t : State) : Prop :=
  t.phase = .tx ∧ t.txState = .pre ∧ t.de = true ∧ t.txIdx = 0 ∧ t.txLen = 11 + content.length
    ∧ (∀ a, Memory.read t.txbuf a =
        if a < 11 + content.length then
          (([0x01, 0x46, 0x46, 0x3A, s.dcmd, 0x02] ++ content ++ [0x03])
            ++ hex4 (crc16 s.cfg.crc ([0x01, 0x46, 0x46, 0x3A, s.dcmd, 0x02] ++ content ++ [0x03])))[a]?
        else Memory.read s.txbuf a)
    ∧ SameButTransmit s t

/-- The next event is an instant in which reset is not asserted, and reset is not held (R261). -/
def Meets (s : State) (i : Inputs) (rest : List Event) : Prop :=
  s.inputs = .instant i :: rest ∧ i.rst = false ∧ s.rst = false

/-- The next event is a receive event (R40): the engine is in `PHASE = RX` and the byte `b` is offered without a framing
error. The other signals of the instant are anything. -/
def Receives (s : State) (b : Byte) (rest : List Event) : Prop :=
  s.phase = .rx ∧ ∃ i, Meets s i rest ∧ i.rxValid = true ∧ i.rxFerr = false ∧ i.rxData = b

/-- Two instants that agree on the signals the phase waits for (R239). -/
def AgreeOnAwaited (s : State) (i j : Inputs) : Prop :=
  match s.phase with
  | .rx => i.rxValid = j.rxValid ∧ i.rxData = j.rxData ∧ i.rxFerr = j.rxFerr
  | .dispatch => True
  | .capWait => i.capRspValid = j.capRspValid ∧ i.capRspContent = j.capRspContent
  | .tx =>
    match s.txState with
    | .idle => True
    | .pre => i.preDone = j.preDone
    | .send => i.txReady = j.txReady
    | .drain => i.txComplete = j.txComplete
    | .post => i.postDone = j.postDone

/-- The number a sequence of ASCII digits spells in base 10 (R80). -/
def decimalValue (digits : List Byte) : Nat := digits.foldl (fun v b => 10 * v + (b.toNat - 0x30)) 0

/-- A sequence of at least one ASCII digit (R80). -/
def IsDecimal (digits : List Byte) : Prop := digits ≠ [] ∧ ∀ b ∈ digits, 0x30 ≤ b.toNat ∧ b.toNat ≤ 0x39

end Sys2Proof.Safety
end

