-- ==== Sys2Proof/WellFormed.lean ====
section
/-! DEFINITION. Which instructions a request frame can carry to the decoder whole: the contents of spec/41_receive.md
R146. An STX in the content is admitted, because the receiver stores it as data (R133; log 18). -/

namespace Sys2Proof

/-- R84, R123: an SOH in the content would restart the session. -/
def noSohInContent (i : Instr) : Bool := !(i.content.contains 0x01)

/-- R84, R132: an ETX in the content would end it early. -/
def noEtxInContent (i : Instr) : Bool := !(i.content.contains 0x03)

/-- R145: longer content would be cut short. -/
def fitsContentBuffer (cfg : Config) (i : Instr) : Bool := decide (i.content.length ≤ cfg.contentCap)

/-- R144: a longer frame would be aborted. -/
def fitsRawBuffer (cfg : Config) (i : Instr) : Bool := decide (7 + i.content.length ≤ cfg.rawCap)

/-- R146: the instructions that a request frame carries to the decoder unchanged. -/
def wellFormed (cfg : Config) (i : Instr) : Bool :=
  noSohInContent i && noEtxInContent i && fitsContentBuffer cfg i && fitsRawBuffer cfg i

end Sys2Proof
end

