-- ==== Sys2Proof/Certificates/Slice0/Obligations.lean ====
section
/-! DEFINITION. The statements for the provers. Each docstring names the rule of spec/ it formalises or rests on. Of these
rules the spec marks as its own inferences R47, R48, R54, R87, R102, R106, R108, R143 to R146, R161, R172, R210 to R212,
R239 and R240 ("[derived: from ...]"); a statement that rests on one of them is listed as derived. -/

open Sys2Proof Sys2Proof.Machine Sys2Proof.Safety

/-! ## CRC-16 (40_crc.md) -/

/-- R106: the check values of the five variants, for `"123456789"`, the empty sequence and `[0x01]`. -/
def Obligations.CrcCheckValues : Prop :=
  let digits : List Byte := [0x31, 0x32, 0x33, 0x34, 0x35, 0x36, 0x37, 0x38, 0x39]
  (crc16 crc16Arc digits = 0xBB3D ∧ crc16 crc16Arc [] = 0x0000 ∧ crc16 crc16Arc [0x01] = 0xC0C1)
    ∧ (crc16 crc16Modbus digits = 0x4B37 ∧ crc16 crc16Modbus [] = 0xFFFF ∧ crc16 crc16Modbus [0x01] = 0x807E)
    ∧ (crc16 crc16Xmodem digits = 0x31C3 ∧ crc16 crc16Xmodem [] = 0x0000 ∧ crc16 crc16Xmodem [0x01] = 0x1021)
    ∧ (crc16 crc16CcittFalse digits = 0x29B1 ∧ crc16 crc16CcittFalse [] = 0xFFFF
        ∧ crc16 crc16CcittFalse [0x01] = 0xF1D1)
    ∧ (crc16 crc16Kermit digits = 0x2189 ∧ crc16 crc16Kermit [] = 0x0000 ∧ crc16 crc16Kermit [0x01] = 0x1189)

/-- R102: the byte-serial form of CRC-16/ARC computes the checksum of R100. -/
def Obligations.CrcBytewiseFormAgreesForArc : Prop :=
  ∀ bytes : List Byte, crc16 crc16Arc bytes = crcBytewiseArc bytes

/-- R108: for every variant whose generator has a nonzero constant term, among them those of R106, replacing one byte by a
different one changes the checksum. -/
def Obligations.CrcDetectsAnyOneByteChange : Prop :=
  ∀ (v : CrcVariant) (before after : List Byte) (b b' : Byte), v.poly.getLsbD 0 = true → b ≠ b' →
    crc16 v (before ++ b :: after) ≠ crc16 v (before ++ b' :: after)

/-! ## Characters and fields (30_encoding.md) -/

/-- R76: a hex digit is `'0'`..`'9'` for 0..9 and `'A'`..`'F'` for 10..15, two digits tell a byte and four a 16-bit value,
the most significant nibble first, so that no two values share their digits. -/
def Obligations.HexRenderingIsUppercaseAndFaithful : Prop :=
  (∀ n : BitVec 4, (hex1 n).toNat = if n.toNat ≤ 9 then 0x30 + n.toNat else 0x41 + (n.toNat - 10))
    ∧ (∀ v : BitVec 16, ∃ a b c d : BitVec 4, hex4 v = [hex1 a, hex1 b, hex1 c, hex1 d]
        ∧ v.toNat = 4096 * a.toNat + 256 * b.toNat + 16 * c.toNat + d.toNat)
    ∧ (∀ v : BitVec 8, ∃ a b : BitVec 4, hex2 v = [hex1 a, hex1 b] ∧ v.toNat = 16 * a.toNat + b.toNat)
    ∧ (∀ v w : BitVec 16, hex4 v = hex4 w → v = w)

/-- R78: `dec` gives the shortest sequence of ASCII digits that spells the number, with no leading zero. -/
def Obligations.DecimalRenderingIsShortest : Prop :=
  ∀ n : Nat, IsDecimal (dec n) ∧ decimalValue (dec n) = n
    ∧ (∀ digits, IsDecimal digits → decimalValue digits = n → (dec n).length ≤ digits.length)
    ∧ (n ≠ 0 → (dec n).head? ≠ some 0x30) ∧ dec 0 = [0x30]

/-- R80: `parse_num` succeeds with `v` exactly when the field has a digit, has only digits, and spells a value that is `v`
and at most `NUM_MAX`. -/
def Obligations.DecimalFieldParsesExactlyWhenStrict : Prop :=
  ∀ (numMax : Nat) (field : List Byte) (v : Nat),
    parseNum numMax field = some v ↔ IsDecimal field ∧ decimalValue field = v ∧ v ≤ numMax

/-- R81: the operands of `D`, `R` and `W`: split at the first `':'`, and for `W` again at the next; `R` has no further
`':'`, and the value of `W` is every byte behind the second one. -/
def Obligations.OperandFormsFollowTheGrammar : Prop :=
  ∀ (cfg : Config) (c : List Byte) (channel port : Nat) (value : List Byte),
    (operandD cfg c = some channel ↔ parseNum cfg.numMax c = some channel)
    ∧ (operandR cfg c = some (channel, port) ↔ ∃ a b, c = a ++ 0x3A :: b ∧ 0x3A ∉ a ∧ 0x3A ∉ b
        ∧ parseNum cfg.numMax a = some channel ∧ parseNum cfg.numMax b = some port)
    ∧ (operandW cfg c = some (channel, port, value) ↔ ∃ a b, c = a ++ 0x3A :: (b ++ 0x3A :: value) ∧ 0x3A ∉ a ∧ 0x3A ∉ b
        ∧ parseNum cfg.numMax a = some channel ∧ parseNum cfg.numMax b = some port)

/-- R85: each error payload is NAK followed at once by the ASCII name, with nothing behind it. -/
def Obligations.ErrorPayloadsAreNakAndTheName : Prop :=
  ∀ e name, (e, name) ∈ [(ErrorName.parameterError, "PARAMETER_ERROR"), (ErrorName.invalidChannel, "INVALID_CHANNEL"),
      (ErrorName.invalidPort, "INVALID_PORT"), (ErrorName.channelReadOnly, "CHANNEL_READ_ONLY")] →
    errorContent e = 0x15 :: name.toList.map fun c => BitVec.ofNat 8 c.toNat

/-! ## Decoding -/

/-- R86, and the command frames of 95_test_vectors.md V1, V3, V18, V25, V40: written-out words decode to their instructions. -/
def Obligations.WrittenOutWordsDecode : Prop :=
  decode [0x50] = .ok (.p []) ∧ decode [0x44, 0x30] = .ok (.d [0x30])
    ∧ decode [0x52, 0x39, 0x3A, 0x30] = .ok (.r [0x39, 0x3A, 0x30])
    ∧ decode [0x57, 0x30, 0x3A, 0x31, 0x3A, 0x31] = .ok (.w [0x30, 0x3A, 0x31, 0x3A, 0x31])
    ∧ decode [0x58] = .ok (.nopX [])
    ∧ decodeFrame testConfig 7 [0x01, 0x30, 0x37, 0x3A, 0x44, 0x02, 0x30, 0x03, 0x42, 0x43, 0x43, 0x43] = .ok (.d [0x30])

/-- R86, R87: exactly the command bytes 0x41..0x5A have an instruction, and it has that letter and that content. -/
def Obligations.ExactlyTheLettersDecode : Prop :=
  ∀ (b : Byte) (content : List Byte),
    ((0x41 ≤ b.toNat ∧ b.toNat ≤ 0x5A) → ∃ i, decode (b :: content) = .ok i ∧ i.letter = b ∧ i.content = content)
    ∧ (¬ (0x41 ≤ b.toNat ∧ b.toNat ≤ 0x5A) → decode (b :: content) = .error (.notACommandLetter b))

/-- R70, R146: the frame decoder reads every well-formed instruction back from its request frame (STX in a content is
admitted, log 18). -/
def Obligations.FrameDecodesToTheInstructionEncoded : Prop :=
  ∀ (cfg : Config) (addr : BitVec 5) (i : Instr), wellFormed cfg i = true →
    decodeFrame cfg addr (encode cfg addr i) = .ok i

/-- R70, R143 to R145: bytes the frame decoder reads are a request frame to this node, and the instruction carries its
letter and the part of its content that the content buffer holds. -/
def Obligations.OnlyRequestFramesDecode : Prop :=
  ∀ (cfg : Config) (addr : BitVec 5) (bytes : List Byte) (i : Instr), decodeFrame cfg addr bytes = .ok i →
    ∃ content, bytes = requestFrame cfg.crc addr i.letter content ∧ carriable content = true
      ∧ 7 + content.length ≤ cfg.rawCap ∧ i.content = content.take cfg.contentCap

/-! ## Receiving (41_receive.md) -/

/-- R122: a byte with a framing error changes nothing, in every receive state. -/
def Obligations.FramingErrorByteIsDiscarded : Prop :=
  ∀ (s : State) (i : Inputs) (rest : List Event), s.phase = .rx → Meets s i rest → i.rxValid = true → i.rxFerr = true →
    step s = .next { s with inputs := rest }

/-- R123: an SOH starts a session afresh from every receive state, except in `ADDR0` under `ToIdle`. -/
def Obligations.SohRestartsTheSession : Prop :=
  ∀ (s : State) (rest : List Event), Receives s 0x01 rest → 0 < s.cfg.rawCap →
    ¬ (s.rxState = .addr0 ∧ s.cfg.sohAtAddr0 = .toIdle) →
    step s = .next { s with inputs := rest, raw := Memory.write s.raw 0 0x01, rawLen := 1, contentLen := 0
                            rxState := .addr0 }

/-- R124: an SOH in `ADDR0` under `ToIdle` aborts. -/
def Obligations.SohInAddr0UnderToIdleAborts : Prop :=
  ∀ (s : State) (rest : List Event), Receives s 0x01 rest → s.rxState = .addr0 → s.cfg.sohAtAddr0 = .toIdle →
    step s = .next { s with inputs := rest, rxState := .idle, rawLen := 0, contentLen := 0 }

/-- R125: `IDLE` discards every byte but SOH. -/
def Obligations.IdleDiscardsOtherBytes : Prop :=
  ∀ (s : State) (b : Byte) (rest : List Event), Receives s b rest → b ≠ 0x01 → s.rxState = .idle →
    step s = .next { s with inputs := rest }

/-- R126 to R128, R130: in `ADDR0`, `ADDR1`, `SEP` and `CSTART` the expected byte is appended to `RAW` and the session goes
on; every other byte but SOH aborts. -/
def Obligations.HeaderBytesAdvanceOrAbort : Prop :=
  ∀ (s : State) (b : Byte) (rest : List Event), Receives s b rest → b ≠ 0x01 → s.rawLen < s.cfg.rawCap →
    ∀ want after, ((s.rxState, want, after) ∈
        [(RxState.addr0, hex1 ((s.devAddr.setWidth 8 : Byte).extractLsb' 4 4), RxState.addr1),
         (RxState.addr1, hex1 ((s.devAddr.setWidth 8 : Byte).extractLsb' 0 4), RxState.sep),
         (RxState.sep, 0x3A, RxState.cmd), (RxState.cstart, 0x02, RxState.content)]) →
      step s = .next (if b = want then
          { s with inputs := rest, raw := Memory.write s.raw s.rawLen b, rawLen := s.rawLen + 1, rxState := after }
        else { s with inputs := rest, rxState := .idle, rawLen := 0, contentLen := 0 })

/-- R129: in `CMD` a byte in `'A'`..`'Z'` is recorded and appended; every other byte but SOH aborts. -/
def Obligations.CommandByteIsRecordedOrAborts : Prop :=
  ∀ (s : State) (b : Byte) (rest : List Event), Receives s b rest → b ≠ 0x01 → s.rxState = .cmd →
    s.rawLen < s.cfg.rawCap →
    step s = .next (if 0x41 ≤ b.toNat ∧ b.toNat ≤ 0x5A then
        { s with inputs := rest, raw := Memory.write s.raw s.rawLen b, rawLen := s.rawLen + 1, cmd := b
                 rxState := .cstart }
      else { s with inputs := rest, rxState := .idle, rawLen := 0, contentLen := 0 })

/-- R131: with the raw buffer full, every byte but SOH aborts, an ETX too. -/
def Obligations.FullRawBufferAborts : Prop :=
  ∀ (s : State) (b : Byte) (rest : List Event), Receives s b rest → b ≠ 0x01 → s.rxState = .content →
    s.rawLen = s.cfg.rawCap →
    step s = .next { s with inputs := rest, rxState := .idle, rawLen := 0, contentLen := 0 }

/-- R132: an ETX ends the content, and the expected checksum covers every byte held, SOH through this ETX. -/
def Obligations.EtxEndsContentAndComputesChecksum : Prop :=
  ∀ (s : State) (rest : List Event), Receives s 0x03 rest → s.rxState = .content → s.rawLen < s.cfg.rawCap →
    (bytesBelow s.raw s.rawLen).length = s.rawLen →
    step s = .next { s with inputs := rest, raw := Memory.write s.raw s.rawLen 0x03, rawLen := s.rawLen + 1
                            expCrc := crc16 s.cfg.crc (bytesBelow s.raw s.rawLen ++ [0x03]), rxState := .ck0 }

/-- R133: a data byte is appended to `RAW`, and to `CONTENT` while there is room. -/
def Obligations.ContentByteIsKeptOrTruncated : Prop :=
  ∀ (s : State) (b : Byte) (rest : List Event), Receives s b rest → b ≠ 0x01 → b ≠ 0x03 → s.rxState = .content →
    s.rawLen < s.cfg.rawCap →
    step s = .next (if s.contentLen < s.cfg.contentCap then
        { s with inputs := rest, raw := Memory.write s.raw s.rawLen b, rawLen := s.rawLen + 1
                 content := Memory.write s.content s.contentLen b, contentLen := s.contentLen + 1 }
      else { s with inputs := rest, raw := Memory.write s.raw s.rawLen b, rawLen := s.rawLen + 1 })

/-- R134 to R136: each of the first three checksum digits advances if it is the expected uppercase hex digit and aborts
otherwise. -/
def Obligations.ChecksumDigitsAdvanceOrAbort : Prop :=
  ∀ (s : State) (b : Byte) (rest : List Event), Receives s b rest → b ≠ 0x01 →
    ∀ lo after, ((s.rxState, lo, after) ∈
        [(RxState.ck0, 12, RxState.ck1), (RxState.ck1, 8, RxState.ck2), (RxState.ck2, 4, RxState.ck3)]) →
      step s = .next (if b = hex1 (s.expCrc.extractLsb' lo 4) then { s with inputs := rest, rxState := after }
        else { s with inputs := rest, rxState := .idle, rawLen := 0, contentLen := 0 })

/-- R137, R138: the fourth digit accepts the frame, latching the letter and the content length, or aborts. Of the model's own
record of earlier uptimes it says nothing (log 24). -/
def Obligations.LastDigitAcceptsTheFrame : Prop :=
  ∀ (s : State) (b : Byte) (rest : List Event), Receives s b rest → b ≠ 0x01 → s.rxState = .ck3 →
    ∃ uptimes, step s = .next (if b = hex1 (s.expCrc.extractLsb' 0 4) then
        { s with inputs := rest, dcmd := s.cmd, dlen := s.contentLen, rxState := .idle, rawLen := 0, contentLen := 0
                 phase := .dispatch, earlierUptimes := uptimes }
      else { s with inputs := rest, rxState := .idle, rawLen := 0, contentLen := 0 })

/-- R146, with R144 and R145: a request frame to this node is accepted from every receive state (under `ToIdle`, from every
one but `ADDR0`), and the decoder is given its letter and the part of its content that the content buffer holds. What the
session and its acceptance do not own is unchanged. The interval of the uptime snapshot (R60) begins with no earlier uptime
(log 24). -/
def Obligations.RequestFrameIsAccepted : Prop :=
  ∀ (s : State) (cmd : Byte) (content : List Byte), s.rst = false → s.phase = .rx →
    (s.cfg.sohAtAddr0 = .restart ∨ s.rxState ≠ .addr0) → isLetter cmd = true → carriable content = true →
    7 + content.length ≤ s.cfg.rawCap →
    ∃ t, runEvents s ((requestFrame s.cfg.crc s.devAddr cmd content).map goodByte) = .next t
      ∧ t.phase = .dispatch ∧ t.dcmd = cmd ∧ t.dlen = min content.length s.cfg.contentCap
      ∧ fetch t = .ok (cmd :: content.take s.cfg.contentCap)
      ∧ t.rxState = .idle ∧ t.rawLen = 0 ∧ t.contentLen = 0 ∧ t.inputs = []
      ∧ t.cfg = s.cfg ∧ t.devAddr = s.devAddr ∧ t.rst = false ∧ t.txState = s.txState ∧ t.txLen = s.txLen
      ∧ t.txIdx = s.txIdx ∧ t.de = s.de ∧ t.capKind = s.capKind ∧ t.capCh = s.capCh ∧ t.capPort = s.capPort
      ∧ t.capValue = s.capValue ∧ t.tickCounter = s.tickCounter ∧ t.uptimeSeconds = s.uptimeSeconds
      ∧ t.emitted = s.emitted ∧ t.draws = s.draws ∧ t.earlierUptimes = []
      ∧ (∀ a, Memory.read t.txbuf a = Memory.read s.txbuf a)

/-- R144, R131: a request frame whose SOH through ETX do not fit `RAW_CAP` is aborted: nothing is accepted, and the receiver
is idle at its end. -/
def Obligations.OverlongFrameIsAborted : Prop :=
  ∀ (s : State) (cmd : Byte) (content : List Byte), s.rst = false → s.phase = .rx →
    (s.cfg.sohAtAddr0 = .restart ∨ s.rxState ≠ .addr0) → isLetter cmd = true → carriable content = true →
    7 ≤ s.cfg.rawCap → s.cfg.rawCap < 7 + content.length →
    ∃ t, runEvents s ((requestFrame s.cfg.crc s.devAddr cmd content).map goodByte) = .next t
      ∧ t.phase = .rx ∧ t.rxState = .idle ∧ t.rawLen = 0 ∧ t.contentLen = 0 ∧ t.dcmd = s.dcmd ∧ t.dlen = s.dlen
      ∧ t.emitted = s.emitted ∧ t.de = s.de

/-- R143, R54: a frame that carries any other address characters, broadcast `"FF"` among them, is never accepted. -/
def Obligations.FrameToAnotherAddressIsIgnored : Prop :=
  ∀ (s : State) (a0 a1 cmd : Byte) (content digits : List Byte), s.rst = false → s.phase = .rx → 7 ≤ s.cfg.rawCap →
    (s.cfg.sohAtAddr0 = .restart ∨ s.rxState ≠ .addr0) → ¬ (a0 = addrCh0 s.devAddr ∧ a1 = addrCh1 s.devAddr) →
    a0 ≠ 0x01 → a1 ≠ 0x01 → cmd ≠ 0x01 → carriable content = true → 0x01 ∉ digits →
    ∃ t, runEvents s ((frameBody a0 a1 cmd content ++ digits).map goodByte) = .next t
      ∧ t.phase = .rx ∧ t.rxState = .idle ∧ t.dcmd = s.dcmd ∧ t.dlen = s.dlen ∧ t.emitted = s.emitted ∧ t.de = s.de

/-- R143, R144, R74: in a state that meets the invariant, what is accepted was a whole frame: the bytes held are SOH, this
node's address, `':'`, the letter latched, STX, the content and ETX, the last digit compared is the last digit of their
checksum, and the content latched is the part the content buffer holds. -/
def Obligations.OnlyWholeFramesAreAccepted : Prop :=
  ∀ s t : State, invariant s = true → step s = .next t → s.phase = .rx → t.phase = .dispatch →
    ∃ content, bytesBelow s.raw s.rawLen = frameBody (addrCh0 s.devAddr) (addrCh1 s.devAddr) t.dcmd content
      ∧ isLetter t.dcmd = true ∧ carriable content = true ∧ 7 + content.length ≤ s.cfg.rawCap
      ∧ s.rxState = .ck3 ∧ s.expCrc = crc16 s.cfg.crc (bytesBelow s.raw s.rawLen)
      ∧ (∃ i, s.inputs.head? = some (.instant i) ∧ i.rxValid = true
          ∧ i.rxData = hex1 (s.expCrc.extractLsb' 0 4))
      ∧ t.dlen = min content.length s.cfg.contentCap ∧ bytesBelow t.content t.dlen = content.take s.cfg.contentCap

/-! ## Commands (42_commands.md) -/

/-- `P` answers with the module name, the channel count and the uptime, whatever its content (R163). The uptime
is one of the values the scheduler has held since the acceptance of the frame (R60, U7), and which one is a free value (log 24).
The model's choice: the response starts at the dispatch step (log 4), and the value is reduced modulo `2^UPTIME_W` (log 22). -/
def Obligations.PingAnswersWithTheUptime : Prop :=
  ∀ (s : State) (c : List Byte), s.phase = .dispatch → configOk s.cfg = true →
    ∃ t, exec (.p c) s = .next t
      ∧ ∃ u ∈ s.earlierUptimes ++ [s.uptimeSeconds],
        RespondsWith (s.cfg.moduleName ++ [0x3A] ++ dec s.cfg.registry.length ++ [0x3A]
          ++ dec (u % 2 ^ s.cfg.uptimeW)) { s with draws := t.draws } t

/-- R164: `D` answers with the channel's description, or with the first error that applies. -/
def Obligations.DescribeAnswersInOrder : Prop :=
  ∀ (s : State) (c : List Byte), s.phase = .dispatch → configOk s.cfg = true →
    ∃ t, exec (.d c) s = .next t ∧ RespondsWith
      (match parseNum s.cfg.numMax c with
        | none => errorContent .parameterError
        | some channel =>
          match s.cfg.registry[channel]? with
          | none => errorContent .invalidChannel
          | some d =>
            d.name ++ [0x3A] ++ dec d.portCount ++ [0x3A]
              ++ [match d.valueType with | .boolean => 0x42 | .integer => s.cfg.vtIntChar] ++ [0x3A]
              ++ [match d.access with | .readWrite => 0x57 | .readOnly => s.cfg.accRoChar] ++ [0x3A]
              ++ d.minBound ++ [0x3A] ++ d.maxBound) s t

/-- R165: `R` with an existing channel and port issues one read request and waits, changing nothing else; otherwise it
answers with the first error that applies, and issues no request. -/
def Obligations.ReadChecksInOrder : Prop :=
  ∀ (s : State) (c : List Byte), s.phase = .dispatch → configOk s.cfg = true →
    (∀ channel port d, operandR s.cfg c = some (channel, port) → s.cfg.registry[channel]? = some d → port < d.portCount →
        exec (.r c) s = .next { s with capKind := .read, capCh := channel, capPort := port, phase := .capWait
                                       emitted := s.emitted ++ [.capRead channel port] })
    ∧ (operandR s.cfg c = none → ∃ t, exec (.r c) s = .next t ∧ RespondsWith (errorContent .parameterError) s t)
    ∧ (∀ channel port, operandR s.cfg c = some (channel, port) → s.cfg.registry.length ≤ channel →
        ∃ t, exec (.r c) s = .next t ∧ RespondsWith (errorContent .invalidChannel) s t)
    ∧ (∀ channel port d, operandR s.cfg c = some (channel, port) → s.cfg.registry[channel]? = some d →
        d.portCount ≤ port → ∃ t, exec (.r c) s = .next t ∧ RespondsWith (errorContent .invalidPort) s t)

/-- R166: `W` with an existing ReadWrite channel and port issues one write request with its value as it stands and waits,
changing nothing else; otherwise it answers with the first error that applies, the read-only check before the port check,
and issues no request. -/
def Obligations.WriteChecksInOrder : Prop :=
  ∀ (s : State) (c : List Byte), s.phase = .dispatch → configOk s.cfg = true →
    (∀ channel port value d, operandW s.cfg c = some (channel, port, value) → s.cfg.registry[channel]? = some d →
        d.access = .readWrite → port < d.portCount →
        exec (.w c) s = .next { s with capKind := .write, capCh := channel, capPort := port, capValue := value
                                       phase := .capWait, emitted := s.emitted ++ [.capWrite channel port value] })
    ∧ (operandW s.cfg c = none → ∃ t, exec (.w c) s = .next t ∧ RespondsWith (errorContent .parameterError) s t)
    ∧ (∀ channel port value, operandW s.cfg c = some (channel, port, value) → s.cfg.registry.length ≤ channel →
        ∃ t, exec (.w c) s = .next t ∧ RespondsWith (errorContent .invalidChannel) s t)
    ∧ (∀ channel port value d, operandW s.cfg c = some (channel, port, value) → s.cfg.registry[channel]? = some d →
        d.access = .readOnly → ∃ t, exec (.w c) s = .next t ∧ RespondsWith (errorContent .channelReadOnly) s t)
    ∧ (∀ channel port value d, operandW s.cfg c = some (channel, port, value) → s.cfg.registry[channel]? = some d →
        d.access = .readWrite → d.portCount ≤ port →
        ∃ t, exec (.w c) s = .next t ∧ RespondsWith (errorContent .invalidPort) s t)

/-- R167: each of the other 22 letters returns the engine to receiving and does nothing else. -/
def Obligations.OtherLettersOnlyReturnToReceiving : Prop :=
  ∀ (s : State) (c : List Byte), ∀ i ∈ [Instr.nopA c, .nopB c, .nopC c, .nopE c, .nopF c, .nopG c, .nopH c, .nopI c,
      .nopJ c, .nopK c, .nopL c, .nopM c, .nopN c, .nopO c, .nopQ c, .nopS c, .nopT c, .nopU c, .nopV c, .nopX c,
      .nopY c, .nopZ c],
    exec i s = .next { s with phase := .rx }

/-- R172, R47: a command issues no capability request, or, for `R` and `W` with every check passed, exactly one; and only a
ReadWrite channel is asked to write. -/
def Obligations.AtMostOneRequestPerCommand : Prop :=
  ∀ (i : Instr) (s t : State), exec i s = .next t →
    (t.emitted = s.emitted ∧ t.phase ≠ .capWait)
    ∨ (t.phase = .capWait ∧ t.capKind = .read ∧ i.letter = 0x52
        ∧ (∃ d, s.cfg.registry[t.capCh]? = some d ∧ t.capPort < d.portCount)
        ∧ t.emitted = s.emitted ++ [.capRead t.capCh t.capPort])
    ∨ (t.phase = .capWait ∧ t.capKind = .write ∧ i.letter = 0x57
        ∧ (∃ d, s.cfg.registry[t.capCh]? = some d ∧ t.capPort < d.portCount ∧ d.access = .readWrite)
        ∧ t.emitted = s.emitted ++ [.capWrite t.capCh t.capPort t.capValue])

/-- R168, R170: a read answer whose content fits is sent as it stands, whatever `ok` says. -/
def Obligations.ReadAnswerIsSentAsItStands : Prop :=
  ∀ (s : State) (i : Inputs) (rest : List Event), s.phase = .capWait → s.capKind = .read → Meets s i rest →
    i.capRspValid = true → i.capRspContent.length ≤ s.cfg.respContentCap →
    ∃ t, step s = .next t ∧ RespondsWith i.capRspContent { s with inputs := rest, capKind := .none } t

/-- R169: a write answer is acknowledged with the byte 0x06, whatever `ok` says. -/
def Obligations.WriteAnswerIsAcknowledged : Prop :=
  ∀ (s : State) (i : Inputs) (rest : List Event), s.phase = .capWait → s.capKind = .write → Meets s i rest →
    i.capRspValid = true → 1 ≤ s.cfg.respContentCap →
    ∃ t, step s = .next t ∧ RespondsWith [0x06] { s with inputs := rest, capKind := .none } t

/-- R200, D20 (log 12): a response content longer than `RESP_CONTENT_CAP` faults instead of being cut. -/
def Obligations.OverlongReadAnswerFaults : Prop :=
  ∀ (s : State) (i : Inputs) (rest : List Event), s.phase = .capWait → s.capKind = .read → Meets s i rest →
    i.capRspValid = true → s.cfg.respContentCap < i.capRspContent.length →
    step s = .fault (.responseTooLong i.capRspContent.length)

/-! ## Transmitting (43_response.md) -/

/-- R205: `pre_done` starts the stream. -/
def Obligations.PreSettleStartsTheStream : Prop :=
  ∀ (s : State) (i : Inputs) (rest : List Event), s.phase = .tx → s.txState = .pre → Meets s i rest → i.preDone = true →
    step s = .next { s with inputs := rest, txState := .send }

/-- R206, R41: a transmit event hands over `TXBUF[TX_IDX]` (to the model's record, log 10), and after the last byte the sequencer waits for
transmit-complete. -/
def Obligations.TransmitEventSendsTheNextByte : Prop :=
  ∀ (s : State) (i : Inputs) (rest : List Event) (b : Byte), s.phase = .tx → s.txState = .send → Meets s i rest →
    i.txReady = true → Memory.read s.txbuf s.txIdx = some b → s.txIdx < s.txLen →
    s.txLen ≤ 11 + s.cfg.respContentCap →
    step s = .next { s with inputs := rest, txIdx := s.txIdx + 1
                            txState := if s.txIdx + 1 = s.txLen then .drain else .send
                            emitted := s.emitted ++ [.txByte b] }

/-- R207: transmit-complete is waited for, with the line still driven. -/
def Obligations.DrainEndsAtTransmitComplete : Prop :=
  ∀ (s : State) (i : Inputs) (rest : List Event), s.phase = .tx → s.txState = .drain → Meets s i rest →
    i.txComplete = true → step s = .next { s with inputs := rest, txState := .post }

/-- R208: after the post-transmit settle the line is released and the engine receives again. -/
def Obligations.PostSettleReleasesTheLine : Prop :=
  ∀ (s : State) (i : Inputs) (rest : List Event), s.phase = .tx → s.txState = .post → Meets s i rest →
    i.postDone = true →
    step s = .next { s with inputs := rest, de := false, txState := .idle, txLen := 0, txIdx := 0, phase := .rx }

/-- R206, R209, R210: from the start of a response, the events the sequencer waits for send exactly the frame in `TXBUF`,
byte for byte and once, and bring the engine back to receiving with the line released. -/
def Obligations.ResponseIsSentOnceInOrder : Prop :=
  ∀ s : State, invariant s = true → s.rst = false → s.phase = .tx → s.txState = .pre →
    ∃ t, runEvents s (.instant { preDone := true } :: (List.replicate s.txLen takeByte
          ++ [.instant { txComplete := true }, .instant { postDone := true }])) = .next t
      ∧ t.emitted = s.emitted ++ (bytesBelow s.txbuf s.txLen).map Emission.txByte
      ∧ (∃ content, bytesBelow s.txbuf s.txLen = responseFrame s.cfg.crc s.dcmd content)
      ∧ t.phase = .rx ∧ t.rxState = .idle ∧ t.de = false ∧ t.txState = .idle ∧ t.txLen = 0 ∧ t.txIdx = 0

/-- R211, R32: a byte is handed to the UART only while the line is driven in `TX_SEND`, and the line is driven only in
`PHASE = TX`. -/
def Obligations.LineIsDrivenWheneverAByteIsSent : Prop :=
  ∀ (s t : State) (b : Byte), invariant s = true → step s = .next t → t.emitted = s.emitted ++ [.txByte b] →
    s.phase = .tx ∧ s.txState = .send ∧ s.de = true ∧ t.phase = .tx ∧ t.de = true

/-! ## The engine (10_state.md, 60_exceptions.md, 70_reset_and_hazards.md) -/

/-- R160, R161: while no reset is asserted or held, a step in `PHASE = DISPATCH` runs the instruction that the latched
command word decodes to, on the state from which the instant's event has been taken. -/
def Obligations.StepRunsTheDecodedInstruction : Prop :=
  ∀ (s s' : State) (bytes : List Byte) (i : Instr), s.phase = .dispatch → s.rst = false →
    ((s.inputs = [] ∧ s' = s)
      ∨ ∃ j rest, s.inputs = .instant j :: rest ∧ j.rst = false ∧ s' = { s with inputs := rest }) →
    fetch s' = .ok bytes → decode bytes = .ok i → step s = exec i s'

/-- R239, R212, R236: an instant's other signals have no effect: a byte offered outside `PHASE = RX`, a capability answer
outside `CAP_WAIT`, the `ok` of an answer, a transmit event that `TX_STATE` does not name. -/
def Obligations.OnlyTheAwaitedEventMatters : Prop :=
  ∀ (s : State) (i j : Inputs) (rest : List Event), s.rst = false → i.rst = false → j.rst = false →
    AgreeOnAwaited s i j →
    step { s with inputs := .instant i :: rest } = step { s with inputs := .instant j :: rest }

/-- R140, R173, R205 to R208: without the event its phase waits for, the engine holds, and the hold is a next state. -/
def Obligations.EngineHoldsWithoutItsEvent : Prop :=
  ∀ (s : State) (i : Inputs) (rest : List Event), Meets s i rest →
    ((s.phase = .rx ∧ i.rxValid = false) ∨ (s.phase = .capWait ∧ i.capRspValid = false)
      ∨ (s.phase = .tx ∧ s.txState = .pre ∧ i.preDone = false)
      ∨ (s.phase = .tx ∧ s.txState = .send ∧ i.txReady = false)
      ∨ (s.phase = .tx ∧ s.txState = .drain ∧ i.txComplete = false)
      ∨ (s.phase = .tx ∧ s.txState = .post ∧ i.postDone = false)) →
    step s = .next { s with inputs := rest }

/-- R242, R261, R39: an asserted reset takes effect in every state, wins over every other signal of its instant, and sets
every register that has a reset value to it; the parameters are kept. The model's choice: the address register is kept until
release (log 15), and the scheduler's counters stand at (0, 0), the values R246 gives it at reset, at every instant at which
reset is asserted (log 4, unsafe for a scheduler that counts during reset), with no earlier uptime held (log 24). -/
def Obligations.ResetAlwaysTakesEffect : Prop :=
  ∀ (s : State) (i : Inputs) (rest : List Event), s.inputs = .instant i :: rest → i.rst = true →
    ∃ t, step s = .next t ∧ t.phase = .rx ∧ t.rxState = .idle ∧ t.rawLen = 0 ∧ t.contentLen = 0 ∧ t.txState = .idle
      ∧ t.txLen = 0 ∧ t.txIdx = 0 ∧ t.de = false ∧ t.capKind = .none ∧ t.rst = true ∧ t.tickCounter = 0
      ∧ t.uptimeSeconds = 0 ∧ t.earlierUptimes = [] ∧ t.cfg = s.cfg ∧ t.devAddr = s.devAddr ∧ t.inputs = rest
      ∧ t.emitted = s.emitted ∧ t.draws = s.draws
      ∧ t.rxReady = false ∧ t.txValid = false ∧ t.deOut = false ∧ t.capReqValid = false

/-- R262, R264, R268: at reset release with the straps settled, `DEV_ADDR` is their inverse; with a strap changing at that
instant it is some value of five bits (a free value, log 9); and nothing else changes but that reset is no longer held (the
counter of free values apart). That this instant consumes no other event is the model's choice (log 15). -/
def Obligations.ReleaseSamplesTheAddress : Prop :=
  ∀ (s : State) (i : Inputs) (rest : List Event), s.inputs = .instant i :: rest → i.rst = false → s.rst = true →
    configOk s.cfg = true →
    ∃ t, step s = .next t ∧ t.rst = false ∧ (i.strapsSettled = true → t.devAddr = ~~~i.addrStrapN)
      ∧ t = { s with inputs := rest, rst := false, devAddr := t.devAddr, draws := t.draws }

/-- R266, U6 (log 11, the model's choice among the spec's): release under an ill-formed configuration is refused. -/
def Obligations.IllFormedConfigurationIsRefused : Prop :=
  ∀ (s : State) (i : Inputs) (rest : List Event), s.inputs = .instant i :: rest → i.rst = false → s.rst = true →
    configOk s.cfg = false → step s = .refused .illFormedConfiguration

/-- R246: over any `TICKS_PER_SECOND` consecutive firings the uptime grows by exactly 1, modulo `2^UPTIME_W`, and the tick
counter is back where it was (log 4). -/
def Obligations.UptimeGrowsOncePerCycle : Prop :=
  ∀ s : State, s.rst = false → s.tickCounter < s.cfg.ticksPerSecond →
    ∃ t, runEvents s (List.replicate s.cfg.ticksPerSecond .tick) = .next t
      ∧ t.uptimeSeconds = (s.uptimeSeconds + 1) % 2 ^ s.cfg.uptimeW ∧ t.tickCounter = s.tickCounter
      ∧ t.phase = s.phase ∧ t.rxState = s.rxState ∧ t.txState = s.txState ∧ t.emitted = s.emitted

/-- R244, R246: a firing changes the scheduler's two counters (in State by the model's choice, log 4) and nothing of the
block; in `PHASE = DISPATCH` an uptime that it replaces is kept among those that a snapshot may return (R60, log 24). -/
def Obligations.TickChangesOnlyTheScheduler : Prop :=
  ∀ (s : State) (rest : List Event), s.inputs = .tick :: rest → s.rst = false →
    step s = .next { s with
      inputs := rest
      tickCounter := (s.tickCounter + 1) % s.cfg.ticksPerSecond
      uptimeSeconds :=
        if (s.tickCounter + 1) % s.cfg.ticksPerSecond = 0 then (s.uptimeSeconds + 1) % 2 ^ s.cfg.uptimeW
        else s.uptimeSeconds
      earlierUptimes :=
        if s.phase = .dispatch ∧ (s.tickCounter + 1) % s.cfg.ticksPerSecond = 0 then s.earlierUptimes ++ [s.uptimeSeconds]
        else s.earlierUptimes }

/-! ## Invariants -/

/-- R39, R264, and R246 for the scheduler's counters: what the spec says of the state after reset release. -/
def Obligations.ResetStateIsTheSpecs : Prop :=
  State.reset.phase = .rx ∧ State.reset.rxState = .idle ∧ State.reset.rawLen = 0 ∧ State.reset.contentLen = 0
    ∧ State.reset.txState = .idle ∧ State.reset.txLen = 0 ∧ State.reset.txIdx = 0 ∧ State.reset.de = false
    ∧ State.reset.capKind = .none ∧ State.reset.tickCounter = 0 ∧ State.reset.uptimeSeconds = 0
    ∧ State.reset.rxReady = true ∧ State.reset.txValid = false ∧ State.reset.deOut = false
    ∧ State.reset.capReqValid = false

/-- The state after reset meets the invariant. The configuration and the address in it are the model's choice (log 2, 8). -/
def Obligations.ResetMeetsTheInvariant : Prop := invariant State.reset = true

/-- R20 to R33, R36, R42, R48: every step keeps the invariant, from every state that meets it. -/
def Obligations.StepKeepsTheInvariant : Prop :=
  ∀ s t : State, invariant s = true → step s = .next t → invariant t = true

/-- R15, R49, R200: from every state that meets the invariant, with providers that keep their bound, a step answers a next
state: no unspecified cell or register is read, and nothing else stops the block. -/
def Obligations.InvariantStatesNeverStop : Prop :=
  ∀ s : State, invariant s = true → providersKeepBound s = true → ∃ t, step s = .next t

/-- R46, R53, R263: no step changes the registry or any other parameter. -/
def Obligations.StepKeepsTheConfiguration : Prop :=
  ∀ s t : State, step s = .next t → t.cfg = s.cfg

/-- R36, R262: `DEV_ADDR` changes only in a step that releases reset. -/
def Obligations.AddressChangesOnlyAtRelease : Prop :=
  ∀ s t : State, step s = .next t → t.devAddr ≠ s.devAddr → s.rst = true ∧ t.rst = false

/-- R211, R212, R32: the block never drives the line while it receives, and never receives while it drives the line. -/
def Obligations.NeverReceivesWhileDriving : Prop :=
  ∀ s : State, invariant s = true →
    (s.rxReady = true → s.deOut = false ∧ s.txValid = false ∧ s.capReqValid = false)
    ∧ (s.deOut = true → s.phase = .tx ∧ s.txState ≠ .idle)
end

