-- ==== Sys2Proof/Laws/State.lean ====
section
/-! SUPPORT. One lemma per field per named update of State, each true by `rfl`, so that no proof unfolds a record update. -/

namespace Sys2Proof.Machine

/-! `State.abort` -/

@[simp] theorem State.abort_cfg (s : State) : (s.abort).cfg = s.cfg := rfl
@[simp] theorem State.abort_phase (s : State) : (s.abort).phase = s.phase := rfl
@[simp] theorem State.abort_rxState (s : State) : (s.abort).rxState = .idle := rfl
@[simp] theorem State.abort_rawLen (s : State) : (s.abort).rawLen = 0 := rfl
@[simp] theorem State.abort_contentLen (s : State) : (s.abort).contentLen = 0 := rfl
@[simp] theorem State.abort_cmd (s : State) : (s.abort).cmd = s.cmd := rfl
@[simp] theorem State.abort_expCrc (s : State) : (s.abort).expCrc = s.expCrc := rfl
@[simp] theorem State.abort_dcmd (s : State) : (s.abort).dcmd = s.dcmd := rfl
@[simp] theorem State.abort_dlen (s : State) : (s.abort).dlen = s.dlen := rfl
@[simp] theorem State.abort_txState (s : State) : (s.abort).txState = s.txState := rfl
@[simp] theorem State.abort_txLen (s : State) : (s.abort).txLen = s.txLen := rfl
@[simp] theorem State.abort_txIdx (s : State) : (s.abort).txIdx = s.txIdx := rfl
@[simp] theorem State.abort_de (s : State) : (s.abort).de = s.de := rfl
@[simp] theorem State.abort_capKind (s : State) : (s.abort).capKind = s.capKind := rfl
@[simp] theorem State.abort_capCh (s : State) : (s.abort).capCh = s.capCh := rfl
@[simp] theorem State.abort_capPort (s : State) : (s.abort).capPort = s.capPort := rfl
@[simp] theorem State.abort_capValue (s : State) : (s.abort).capValue = s.capValue := rfl
@[simp] theorem State.abort_devAddr (s : State) : (s.abort).devAddr = s.devAddr := rfl
@[simp] theorem State.abort_raw (s : State) : (s.abort).raw = s.raw := rfl
@[simp] theorem State.abort_content (s : State) : (s.abort).content = s.content := rfl
@[simp] theorem State.abort_txbuf (s : State) : (s.abort).txbuf = s.txbuf := rfl
@[simp] theorem State.abort_rst (s : State) : (s.abort).rst = s.rst := rfl
@[simp] theorem State.abort_tickCounter (s : State) : (s.abort).tickCounter = s.tickCounter := rfl
@[simp] theorem State.abort_uptimeSeconds (s : State) : (s.abort).uptimeSeconds = s.uptimeSeconds := rfl
@[simp] theorem State.abort_earlierUptimes (s : State) : (s.abort).earlierUptimes = s.earlierUptimes := rfl
@[simp] theorem State.abort_inputs (s : State) : (s.abort).inputs = s.inputs := rfl
@[simp] theorem State.abort_emitted (s : State) : (s.abort).emitted = s.emitted := rfl
@[simp] theorem State.abort_draws (s : State) : (s.abort).draws = s.draws := rfl

/-! `State.beginTx` -/

@[simp] theorem State.beginTx_cfg (s : State) (n : Nat) : (s.beginTx n).cfg = s.cfg := rfl
@[simp] theorem State.beginTx_phase (s : State) (n : Nat) : (s.beginTx n).phase = .tx := rfl
@[simp] theorem State.beginTx_rxState (s : State) (n : Nat) : (s.beginTx n).rxState = s.rxState := rfl
@[simp] theorem State.beginTx_rawLen (s : State) (n : Nat) : (s.beginTx n).rawLen = s.rawLen := rfl
@[simp] theorem State.beginTx_contentLen (s : State) (n : Nat) : (s.beginTx n).contentLen = s.contentLen := rfl
@[simp] theorem State.beginTx_cmd (s : State) (n : Nat) : (s.beginTx n).cmd = s.cmd := rfl
@[simp] theorem State.beginTx_expCrc (s : State) (n : Nat) : (s.beginTx n).expCrc = s.expCrc := rfl
@[simp] theorem State.beginTx_dcmd (s : State) (n : Nat) : (s.beginTx n).dcmd = s.dcmd := rfl
@[simp] theorem State.beginTx_dlen (s : State) (n : Nat) : (s.beginTx n).dlen = s.dlen := rfl
@[simp] theorem State.beginTx_txState (s : State) (n : Nat) : (s.beginTx n).txState = .pre := rfl
@[simp] theorem State.beginTx_txLen (s : State) (n : Nat) : (s.beginTx n).txLen = n := rfl
@[simp] theorem State.beginTx_txIdx (s : State) (n : Nat) : (s.beginTx n).txIdx = 0 := rfl
@[simp] theorem State.beginTx_de (s : State) (n : Nat) : (s.beginTx n).de = true := rfl
@[simp] theorem State.beginTx_capKind (s : State) (n : Nat) : (s.beginTx n).capKind = s.capKind := rfl
@[simp] theorem State.beginTx_capCh (s : State) (n : Nat) : (s.beginTx n).capCh = s.capCh := rfl
@[simp] theorem State.beginTx_capPort (s : State) (n : Nat) : (s.beginTx n).capPort = s.capPort := rfl
@[simp] theorem State.beginTx_capValue (s : State) (n : Nat) : (s.beginTx n).capValue = s.capValue := rfl
@[simp] theorem State.beginTx_devAddr (s : State) (n : Nat) : (s.beginTx n).devAddr = s.devAddr := rfl
@[simp] theorem State.beginTx_raw (s : State) (n : Nat) : (s.beginTx n).raw = s.raw := rfl
@[simp] theorem State.beginTx_content (s : State) (n : Nat) : (s.beginTx n).content = s.content := rfl
@[simp] theorem State.beginTx_txbuf (s : State) (n : Nat) : (s.beginTx n).txbuf = s.txbuf := rfl
@[simp] theorem State.beginTx_rst (s : State) (n : Nat) : (s.beginTx n).rst = s.rst := rfl
@[simp] theorem State.beginTx_tickCounter (s : State) (n : Nat) : (s.beginTx n).tickCounter = s.tickCounter := rfl
@[simp] theorem State.beginTx_uptimeSeconds (s : State) (n : Nat) : (s.beginTx n).uptimeSeconds = s.uptimeSeconds := rfl
@[simp] theorem State.beginTx_earlierUptimes (s : State) (n : Nat) : (s.beginTx n).earlierUptimes = s.earlierUptimes := rfl
@[simp] theorem State.beginTx_inputs (s : State) (n : Nat) : (s.beginTx n).inputs = s.inputs := rfl
@[simp] theorem State.beginTx_emitted (s : State) (n : Nat) : (s.beginTx n).emitted = s.emitted := rfl
@[simp] theorem State.beginTx_draws (s : State) (n : Nat) : (s.beginTx n).draws = s.draws := rfl

/-! `State.returnToRx` -/

@[simp] theorem State.returnToRx_cfg (s : State) : (s.returnToRx).cfg = s.cfg := rfl
@[simp] theorem State.returnToRx_phase (s : State) : (s.returnToRx).phase = .rx := rfl
@[simp] theorem State.returnToRx_rxState (s : State) : (s.returnToRx).rxState = s.rxState := rfl
@[simp] theorem State.returnToRx_rawLen (s : State) : (s.returnToRx).rawLen = s.rawLen := rfl
@[simp] theorem State.returnToRx_contentLen (s : State) : (s.returnToRx).contentLen = s.contentLen := rfl
@[simp] theorem State.returnToRx_cmd (s : State) : (s.returnToRx).cmd = s.cmd := rfl
@[simp] theorem State.returnToRx_expCrc (s : State) : (s.returnToRx).expCrc = s.expCrc := rfl
@[simp] theorem State.returnToRx_dcmd (s : State) : (s.returnToRx).dcmd = s.dcmd := rfl
@[simp] theorem State.returnToRx_dlen (s : State) : (s.returnToRx).dlen = s.dlen := rfl
@[simp] theorem State.returnToRx_txState (s : State) : (s.returnToRx).txState = .idle := rfl
@[simp] theorem State.returnToRx_txLen (s : State) : (s.returnToRx).txLen = 0 := rfl
@[simp] theorem State.returnToRx_txIdx (s : State) : (s.returnToRx).txIdx = 0 := rfl
@[simp] theorem State.returnToRx_de (s : State) : (s.returnToRx).de = false := rfl
@[simp] theorem State.returnToRx_capKind (s : State) : (s.returnToRx).capKind = s.capKind := rfl
@[simp] theorem State.returnToRx_capCh (s : State) : (s.returnToRx).capCh = s.capCh := rfl
@[simp] theorem State.returnToRx_capPort (s : State) : (s.returnToRx).capPort = s.capPort := rfl
@[simp] theorem State.returnToRx_capValue (s : State) : (s.returnToRx).capValue = s.capValue := rfl
@[simp] theorem State.returnToRx_devAddr (s : State) : (s.returnToRx).devAddr = s.devAddr := rfl
@[simp] theorem State.returnToRx_raw (s : State) : (s.returnToRx).raw = s.raw := rfl
@[simp] theorem State.returnToRx_content (s : State) : (s.returnToRx).content = s.content := rfl
@[simp] theorem State.returnToRx_txbuf (s : State) : (s.returnToRx).txbuf = s.txbuf := rfl
@[simp] theorem State.returnToRx_rst (s : State) : (s.returnToRx).rst = s.rst := rfl
@[simp] theorem State.returnToRx_tickCounter (s : State) : (s.returnToRx).tickCounter = s.tickCounter := rfl
@[simp] theorem State.returnToRx_uptimeSeconds (s : State) : (s.returnToRx).uptimeSeconds = s.uptimeSeconds := rfl
@[simp] theorem State.returnToRx_earlierUptimes (s : State) : (s.returnToRx).earlierUptimes = s.earlierUptimes := rfl
@[simp] theorem State.returnToRx_inputs (s : State) : (s.returnToRx).inputs = s.inputs := rfl
@[simp] theorem State.returnToRx_emitted (s : State) : (s.returnToRx).emitted = s.emitted := rfl
@[simp] theorem State.returnToRx_draws (s : State) : (s.returnToRx).draws = s.draws := rfl

/-! `State.noResponse` -/

@[simp] theorem State.noResponse_cfg (s : State) : (s.noResponse).cfg = s.cfg := rfl
@[simp] theorem State.noResponse_phase (s : State) : (s.noResponse).phase = .rx := rfl
@[simp] theorem State.noResponse_rxState (s : State) : (s.noResponse).rxState = s.rxState := rfl
@[simp] theorem State.noResponse_rawLen (s : State) : (s.noResponse).rawLen = s.rawLen := rfl
@[simp] theorem State.noResponse_contentLen (s : State) : (s.noResponse).contentLen = s.contentLen := rfl
@[simp] theorem State.noResponse_cmd (s : State) : (s.noResponse).cmd = s.cmd := rfl
@[simp] theorem State.noResponse_expCrc (s : State) : (s.noResponse).expCrc = s.expCrc := rfl
@[simp] theorem State.noResponse_dcmd (s : State) : (s.noResponse).dcmd = s.dcmd := rfl
@[simp] theorem State.noResponse_dlen (s : State) : (s.noResponse).dlen = s.dlen := rfl
@[simp] theorem State.noResponse_txState (s : State) : (s.noResponse).txState = s.txState := rfl
@[simp] theorem State.noResponse_txLen (s : State) : (s.noResponse).txLen = s.txLen := rfl
@[simp] theorem State.noResponse_txIdx (s : State) : (s.noResponse).txIdx = s.txIdx := rfl
@[simp] theorem State.noResponse_de (s : State) : (s.noResponse).de = s.de := rfl
@[simp] theorem State.noResponse_capKind (s : State) : (s.noResponse).capKind = s.capKind := rfl
@[simp] theorem State.noResponse_capCh (s : State) : (s.noResponse).capCh = s.capCh := rfl
@[simp] theorem State.noResponse_capPort (s : State) : (s.noResponse).capPort = s.capPort := rfl
@[simp] theorem State.noResponse_capValue (s : State) : (s.noResponse).capValue = s.capValue := rfl
@[simp] theorem State.noResponse_devAddr (s : State) : (s.noResponse).devAddr = s.devAddr := rfl
@[simp] theorem State.noResponse_raw (s : State) : (s.noResponse).raw = s.raw := rfl
@[simp] theorem State.noResponse_content (s : State) : (s.noResponse).content = s.content := rfl
@[simp] theorem State.noResponse_txbuf (s : State) : (s.noResponse).txbuf = s.txbuf := rfl
@[simp] theorem State.noResponse_rst (s : State) : (s.noResponse).rst = s.rst := rfl
@[simp] theorem State.noResponse_tickCounter (s : State) : (s.noResponse).tickCounter = s.tickCounter := rfl
@[simp] theorem State.noResponse_uptimeSeconds (s : State) : (s.noResponse).uptimeSeconds = s.uptimeSeconds := rfl
@[simp] theorem State.noResponse_earlierUptimes (s : State) : (s.noResponse).earlierUptimes = s.earlierUptimes := rfl
@[simp] theorem State.noResponse_inputs (s : State) : (s.noResponse).inputs = s.inputs := rfl
@[simp] theorem State.noResponse_emitted (s : State) : (s.noResponse).emitted = s.emitted := rfl
@[simp] theorem State.noResponse_draws (s : State) : (s.noResponse).draws = s.draws := rfl

/-! `State.requestRead` -/

@[simp] theorem State.requestRead_cfg (s : State) (c p : Nat) : (s.requestRead c p).cfg = s.cfg := rfl
@[simp] theorem State.requestRead_phase (s : State) (c p : Nat) : (s.requestRead c p).phase = .capWait := rfl
@[simp] theorem State.requestRead_rxState (s : State) (c p : Nat) : (s.requestRead c p).rxState = s.rxState := rfl
@[simp] theorem State.requestRead_rawLen (s : State) (c p : Nat) : (s.requestRead c p).rawLen = s.rawLen := rfl
@[simp] theorem State.requestRead_contentLen (s : State) (c p : Nat) : (s.requestRead c p).contentLen = s.contentLen := rfl
@[simp] theorem State.requestRead_cmd (s : State) (c p : Nat) : (s.requestRead c p).cmd = s.cmd := rfl
@[simp] theorem State.requestRead_expCrc (s : State) (c p : Nat) : (s.requestRead c p).expCrc = s.expCrc := rfl
@[simp] theorem State.requestRead_dcmd (s : State) (c p : Nat) : (s.requestRead c p).dcmd = s.dcmd := rfl
@[simp] theorem State.requestRead_dlen (s : State) (c p : Nat) : (s.requestRead c p).dlen = s.dlen := rfl
@[simp] theorem State.requestRead_txState (s : State) (c p : Nat) : (s.requestRead c p).txState = s.txState := rfl
@[simp] theorem State.requestRead_txLen (s : State) (c p : Nat) : (s.requestRead c p).txLen = s.txLen := rfl
@[simp] theorem State.requestRead_txIdx (s : State) (c p : Nat) : (s.requestRead c p).txIdx = s.txIdx := rfl
@[simp] theorem State.requestRead_de (s : State) (c p : Nat) : (s.requestRead c p).de = s.de := rfl
@[simp] theorem State.requestRead_capKind (s : State) (c p : Nat) : (s.requestRead c p).capKind = .read := rfl
@[simp] theorem State.requestRead_capCh (s : State) (c p : Nat) : (s.requestRead c p).capCh = c := rfl
@[simp] theorem State.requestRead_capPort (s : State) (c p : Nat) : (s.requestRead c p).capPort = p := rfl
@[simp] theorem State.requestRead_capValue (s : State) (c p : Nat) : (s.requestRead c p).capValue = s.capValue := rfl
@[simp] theorem State.requestRead_devAddr (s : State) (c p : Nat) : (s.requestRead c p).devAddr = s.devAddr := rfl
@[simp] theorem State.requestRead_raw (s : State) (c p : Nat) : (s.requestRead c p).raw = s.raw := rfl
@[simp] theorem State.requestRead_content (s : State) (c p : Nat) : (s.requestRead c p).content = s.content := rfl
@[simp] theorem State.requestRead_txbuf (s : State) (c p : Nat) : (s.requestRead c p).txbuf = s.txbuf := rfl
@[simp] theorem State.requestRead_rst (s : State) (c p : Nat) : (s.requestRead c p).rst = s.rst := rfl
@[simp] theorem State.requestRead_tickCounter (s : State) (c p : Nat) : (s.requestRead c p).tickCounter = s.tickCounter := rfl
@[simp] theorem State.requestRead_uptimeSeconds (s : State) (c p : Nat) : (s.requestRead c p).uptimeSeconds = s.uptimeSeconds := rfl
@[simp] theorem State.requestRead_earlierUptimes (s : State) (c p : Nat) : (s.requestRead c p).earlierUptimes = s.earlierUptimes := rfl
@[simp] theorem State.requestRead_inputs (s : State) (c p : Nat) : (s.requestRead c p).inputs = s.inputs := rfl
@[simp] theorem State.requestRead_emitted (s : State) (c p : Nat) : (s.requestRead c p).emitted = s.emitted ++ [.capRead c p] := rfl
@[simp] theorem State.requestRead_draws (s : State) (c p : Nat) : (s.requestRead c p).draws = s.draws := rfl

/-! `State.requestWrite` -/

@[simp] theorem State.requestWrite_cfg (s : State) (c p : Nat) (v : List Byte) : (s.requestWrite c p v).cfg = s.cfg := rfl
@[simp] theorem State.requestWrite_phase (s : State) (c p : Nat) (v : List Byte) : (s.requestWrite c p v).phase = .capWait := rfl
@[simp] theorem State.requestWrite_rxState (s : State) (c p : Nat) (v : List Byte) : (s.requestWrite c p v).rxState = s.rxState := rfl
@[simp] theorem State.requestWrite_rawLen (s : State) (c p : Nat) (v : List Byte) : (s.requestWrite c p v).rawLen = s.rawLen := rfl
@[simp] theorem State.requestWrite_contentLen (s : State) (c p : Nat) (v : List Byte) : (s.requestWrite c p v).contentLen = s.contentLen := rfl
@[simp] theorem State.requestWrite_cmd (s : State) (c p : Nat) (v : List Byte) : (s.requestWrite c p v).cmd = s.cmd := rfl
@[simp] theorem State.requestWrite_expCrc (s : State) (c p : Nat) (v : List Byte) : (s.requestWrite c p v).expCrc = s.expCrc := rfl
@[simp] theorem State.requestWrite_dcmd (s : State) (c p : Nat) (v : List Byte) : (s.requestWrite c p v).dcmd = s.dcmd := rfl
@[simp] theorem State.requestWrite_dlen (s : State) (c p : Nat) (v : List Byte) : (s.requestWrite c p v).dlen = s.dlen := rfl
@[simp] theorem State.requestWrite_txState (s : State) (c p : Nat) (v : List Byte) : (s.requestWrite c p v).txState = s.txState := rfl
@[simp] theorem State.requestWrite_txLen (s : State) (c p : Nat) (v : List Byte) : (s.requestWrite c p v).txLen = s.txLen := rfl
@[simp] theorem State.requestWrite_txIdx (s : State) (c p : Nat) (v : List Byte) : (s.requestWrite c p v).txIdx = s.txIdx := rfl
@[simp] theorem State.requestWrite_de (s : State) (c p : Nat) (v : List Byte) : (s.requestWrite c p v).de = s.de := rfl
@[simp] theorem State.requestWrite_capKind (s : State) (c p : Nat) (v : List Byte) : (s.requestWrite c p v).capKind = .write := rfl
@[simp] theorem State.requestWrite_capCh (s : State) (c p : Nat) (v : List Byte) : (s.requestWrite c p v).capCh = c := rfl
@[simp] theorem State.requestWrite_capPort (s : State) (c p : Nat) (v : List Byte) : (s.requestWrite c p v).capPort = p := rfl
@[simp] theorem State.requestWrite_capValue (s : State) (c p : Nat) (v : List Byte) : (s.requestWrite c p v).capValue = v := rfl
@[simp] theorem State.requestWrite_devAddr (s : State) (c p : Nat) (v : List Byte) : (s.requestWrite c p v).devAddr = s.devAddr := rfl
@[simp] theorem State.requestWrite_raw (s : State) (c p : Nat) (v : List Byte) : (s.requestWrite c p v).raw = s.raw := rfl
@[simp] theorem State.requestWrite_content (s : State) (c p : Nat) (v : List Byte) : (s.requestWrite c p v).content = s.content := rfl
@[simp] theorem State.requestWrite_txbuf (s : State) (c p : Nat) (v : List Byte) : (s.requestWrite c p v).txbuf = s.txbuf := rfl
@[simp] theorem State.requestWrite_rst (s : State) (c p : Nat) (v : List Byte) : (s.requestWrite c p v).rst = s.rst := rfl
@[simp] theorem State.requestWrite_tickCounter (s : State) (c p : Nat) (v : List Byte) : (s.requestWrite c p v).tickCounter = s.tickCounter := rfl
@[simp] theorem State.requestWrite_uptimeSeconds (s : State) (c p : Nat) (v : List Byte) : (s.requestWrite c p v).uptimeSeconds = s.uptimeSeconds := rfl
@[simp] theorem State.requestWrite_earlierUptimes (s : State) (c p : Nat) (v : List Byte) : (s.requestWrite c p v).earlierUptimes = s.earlierUptimes := rfl
@[simp] theorem State.requestWrite_inputs (s : State) (c p : Nat) (v : List Byte) : (s.requestWrite c p v).inputs = s.inputs := rfl
@[simp] theorem State.requestWrite_emitted (s : State) (c p : Nat) (v : List Byte) : (s.requestWrite c p v).emitted = s.emitted ++ [.capWrite c p v] := rfl
@[simp] theorem State.requestWrite_draws (s : State) (c p : Nat) (v : List Byte) : (s.requestWrite c p v).draws = s.draws := rfl

/-! `txPreDone` -/

@[simp] theorem txPreDone_cfg (s : State) : (txPreDone s).cfg = s.cfg := rfl
@[simp] theorem txPreDone_phase (s : State) : (txPreDone s).phase = s.phase := rfl
@[simp] theorem txPreDone_rxState (s : State) : (txPreDone s).rxState = s.rxState := rfl
@[simp] theorem txPreDone_rawLen (s : State) : (txPreDone s).rawLen = s.rawLen := rfl
@[simp] theorem txPreDone_contentLen (s : State) : (txPreDone s).contentLen = s.contentLen := rfl
@[simp] theorem txPreDone_cmd (s : State) : (txPreDone s).cmd = s.cmd := rfl
@[simp] theorem txPreDone_expCrc (s : State) : (txPreDone s).expCrc = s.expCrc := rfl
@[simp] theorem txPreDone_dcmd (s : State) : (txPreDone s).dcmd = s.dcmd := rfl
@[simp] theorem txPreDone_dlen (s : State) : (txPreDone s).dlen = s.dlen := rfl
@[simp] theorem txPreDone_txState (s : State) : (txPreDone s).txState = .send := rfl
@[simp] theorem txPreDone_txLen (s : State) : (txPreDone s).txLen = s.txLen := rfl
@[simp] theorem txPreDone_txIdx (s : State) : (txPreDone s).txIdx = s.txIdx := rfl
@[simp] theorem txPreDone_de (s : State) : (txPreDone s).de = s.de := rfl
@[simp] theorem txPreDone_capKind (s : State) : (txPreDone s).capKind = s.capKind := rfl
@[simp] theorem txPreDone_capCh (s : State) : (txPreDone s).capCh = s.capCh := rfl
@[simp] theorem txPreDone_capPort (s : State) : (txPreDone s).capPort = s.capPort := rfl
@[simp] theorem txPreDone_capValue (s : State) : (txPreDone s).capValue = s.capValue := rfl
@[simp] theorem txPreDone_devAddr (s : State) : (txPreDone s).devAddr = s.devAddr := rfl
@[simp] theorem txPreDone_raw (s : State) : (txPreDone s).raw = s.raw := rfl
@[simp] theorem txPreDone_content (s : State) : (txPreDone s).content = s.content := rfl
@[simp] theorem txPreDone_txbuf (s : State) : (txPreDone s).txbuf = s.txbuf := rfl
@[simp] theorem txPreDone_rst (s : State) : (txPreDone s).rst = s.rst := rfl
@[simp] theorem txPreDone_tickCounter (s : State) : (txPreDone s).tickCounter = s.tickCounter := rfl
@[simp] theorem txPreDone_uptimeSeconds (s : State) : (txPreDone s).uptimeSeconds = s.uptimeSeconds := rfl
@[simp] theorem txPreDone_earlierUptimes (s : State) : (txPreDone s).earlierUptimes = s.earlierUptimes := rfl
@[simp] theorem txPreDone_inputs (s : State) : (txPreDone s).inputs = s.inputs := rfl
@[simp] theorem txPreDone_emitted (s : State) : (txPreDone s).emitted = s.emitted := rfl
@[simp] theorem txPreDone_draws (s : State) : (txPreDone s).draws = s.draws := rfl

/-! `txDrained` -/

@[simp] theorem txDrained_cfg (s : State) : (txDrained s).cfg = s.cfg := rfl
@[simp] theorem txDrained_phase (s : State) : (txDrained s).phase = s.phase := rfl
@[simp] theorem txDrained_rxState (s : State) : (txDrained s).rxState = s.rxState := rfl
@[simp] theorem txDrained_rawLen (s : State) : (txDrained s).rawLen = s.rawLen := rfl
@[simp] theorem txDrained_contentLen (s : State) : (txDrained s).contentLen = s.contentLen := rfl
@[simp] theorem txDrained_cmd (s : State) : (txDrained s).cmd = s.cmd := rfl
@[simp] theorem txDrained_expCrc (s : State) : (txDrained s).expCrc = s.expCrc := rfl
@[simp] theorem txDrained_dcmd (s : State) : (txDrained s).dcmd = s.dcmd := rfl
@[simp] theorem txDrained_dlen (s : State) : (txDrained s).dlen = s.dlen := rfl
@[simp] theorem txDrained_txState (s : State) : (txDrained s).txState = .post := rfl
@[simp] theorem txDrained_txLen (s : State) : (txDrained s).txLen = s.txLen := rfl
@[simp] theorem txDrained_txIdx (s : State) : (txDrained s).txIdx = s.txIdx := rfl
@[simp] theorem txDrained_de (s : State) : (txDrained s).de = s.de := rfl
@[simp] theorem txDrained_capKind (s : State) : (txDrained s).capKind = s.capKind := rfl
@[simp] theorem txDrained_capCh (s : State) : (txDrained s).capCh = s.capCh := rfl
@[simp] theorem txDrained_capPort (s : State) : (txDrained s).capPort = s.capPort := rfl
@[simp] theorem txDrained_capValue (s : State) : (txDrained s).capValue = s.capValue := rfl
@[simp] theorem txDrained_devAddr (s : State) : (txDrained s).devAddr = s.devAddr := rfl
@[simp] theorem txDrained_raw (s : State) : (txDrained s).raw = s.raw := rfl
@[simp] theorem txDrained_content (s : State) : (txDrained s).content = s.content := rfl
@[simp] theorem txDrained_txbuf (s : State) : (txDrained s).txbuf = s.txbuf := rfl
@[simp] theorem txDrained_rst (s : State) : (txDrained s).rst = s.rst := rfl
@[simp] theorem txDrained_tickCounter (s : State) : (txDrained s).tickCounter = s.tickCounter := rfl
@[simp] theorem txDrained_uptimeSeconds (s : State) : (txDrained s).uptimeSeconds = s.uptimeSeconds := rfl
@[simp] theorem txDrained_earlierUptimes (s : State) : (txDrained s).earlierUptimes = s.earlierUptimes := rfl
@[simp] theorem txDrained_inputs (s : State) : (txDrained s).inputs = s.inputs := rfl
@[simp] theorem txDrained_emitted (s : State) : (txDrained s).emitted = s.emitted := rfl
@[simp] theorem txDrained_draws (s : State) : (txDrained s).draws = s.draws := rfl

/-! `resetAssert` -/

@[simp] theorem resetAssert_cfg (s : State) : (resetAssert s).cfg = s.cfg := rfl
@[simp] theorem resetAssert_phase (s : State) : (resetAssert s).phase = .rx := rfl
@[simp] theorem resetAssert_rxState (s : State) : (resetAssert s).rxState = .idle := rfl
@[simp] theorem resetAssert_rawLen (s : State) : (resetAssert s).rawLen = 0 := rfl
@[simp] theorem resetAssert_contentLen (s : State) : (resetAssert s).contentLen = 0 := rfl
@[simp] theorem resetAssert_cmd (s : State) : (resetAssert s).cmd = 0 := rfl
@[simp] theorem resetAssert_expCrc (s : State) : (resetAssert s).expCrc = 0 := rfl
@[simp] theorem resetAssert_dcmd (s : State) : (resetAssert s).dcmd = 0 := rfl
@[simp] theorem resetAssert_dlen (s : State) : (resetAssert s).dlen = 0 := rfl
@[simp] theorem resetAssert_txState (s : State) : (resetAssert s).txState = .idle := rfl
@[simp] theorem resetAssert_txLen (s : State) : (resetAssert s).txLen = 0 := rfl
@[simp] theorem resetAssert_txIdx (s : State) : (resetAssert s).txIdx = 0 := rfl
@[simp] theorem resetAssert_de (s : State) : (resetAssert s).de = false := rfl
@[simp] theorem resetAssert_capKind (s : State) : (resetAssert s).capKind = .none := rfl
@[simp] theorem resetAssert_capCh (s : State) : (resetAssert s).capCh = 0 := rfl
@[simp] theorem resetAssert_capPort (s : State) : (resetAssert s).capPort = 0 := rfl
@[simp] theorem resetAssert_capValue (s : State) : (resetAssert s).capValue = [] := rfl
@[simp] theorem resetAssert_devAddr (s : State) : (resetAssert s).devAddr = s.devAddr := rfl
@[simp] theorem resetAssert_raw (s : State) : (resetAssert s).raw = [] := rfl
@[simp] theorem resetAssert_content (s : State) : (resetAssert s).content = [] := rfl
@[simp] theorem resetAssert_txbuf (s : State) : (resetAssert s).txbuf = [] := rfl
@[simp] theorem resetAssert_rst (s : State) : (resetAssert s).rst = true := rfl
@[simp] theorem resetAssert_tickCounter (s : State) : (resetAssert s).tickCounter = 0 := rfl
@[simp] theorem resetAssert_uptimeSeconds (s : State) : (resetAssert s).uptimeSeconds = 0 := rfl
@[simp] theorem resetAssert_earlierUptimes (s : State) : (resetAssert s).earlierUptimes = [] := rfl
@[simp] theorem resetAssert_inputs (s : State) : (resetAssert s).inputs = s.inputs := rfl
@[simp] theorem resetAssert_emitted (s : State) : (resetAssert s).emitted = s.emitted := rfl
@[simp] theorem resetAssert_draws (s : State) : (resetAssert s).draws = s.draws := rfl

/-! `State.afterSnapshot`: only the counter of free values can move. -/

@[simp] theorem State.afterSnapshot_cfg (s : State) : s.afterSnapshot.cfg = s.cfg := by
  unfold State.afterSnapshot; split <;> rfl
@[simp] theorem State.afterSnapshot_phase (s : State) : s.afterSnapshot.phase = s.phase := by
  unfold State.afterSnapshot; split <;> rfl
@[simp] theorem State.afterSnapshot_rxState (s : State) : s.afterSnapshot.rxState = s.rxState := by
  unfold State.afterSnapshot; split <;> rfl
@[simp] theorem State.afterSnapshot_rawLen (s : State) : s.afterSnapshot.rawLen = s.rawLen := by
  unfold State.afterSnapshot; split <;> rfl
@[simp] theorem State.afterSnapshot_contentLen (s : State) : s.afterSnapshot.contentLen = s.contentLen := by
  unfold State.afterSnapshot; split <;> rfl
@[simp] theorem State.afterSnapshot_cmd (s : State) : s.afterSnapshot.cmd = s.cmd := by
  unfold State.afterSnapshot; split <;> rfl
@[simp] theorem State.afterSnapshot_expCrc (s : State) : s.afterSnapshot.expCrc = s.expCrc := by
  unfold State.afterSnapshot; split <;> rfl
@[simp] theorem State.afterSnapshot_dcmd (s : State) : s.afterSnapshot.dcmd = s.dcmd := by
  unfold State.afterSnapshot; split <;> rfl
@[simp] theorem State.afterSnapshot_dlen (s : State) : s.afterSnapshot.dlen = s.dlen := by
  unfold State.afterSnapshot; split <;> rfl
@[simp] theorem State.afterSnapshot_txState (s : State) : s.afterSnapshot.txState = s.txState := by
  unfold State.afterSnapshot; split <;> rfl
@[simp] theorem State.afterSnapshot_txLen (s : State) : s.afterSnapshot.txLen = s.txLen := by
  unfold State.afterSnapshot; split <;> rfl
@[simp] theorem State.afterSnapshot_txIdx (s : State) : s.afterSnapshot.txIdx = s.txIdx := by
  unfold State.afterSnapshot; split <;> rfl
@[simp] theorem State.afterSnapshot_de (s : State) : s.afterSnapshot.de = s.de := by
  unfold State.afterSnapshot; split <;> rfl
@[simp] theorem State.afterSnapshot_capKind (s : State) : s.afterSnapshot.capKind = s.capKind := by
  unfold State.afterSnapshot; split <;> rfl
@[simp] theorem State.afterSnapshot_capCh (s : State) : s.afterSnapshot.capCh = s.capCh := by
  unfold State.afterSnapshot; split <;> rfl
@[simp] theorem State.afterSnapshot_capPort (s : State) : s.afterSnapshot.capPort = s.capPort := by
  unfold State.afterSnapshot; split <;> rfl
@[simp] theorem State.afterSnapshot_capValue (s : State) : s.afterSnapshot.capValue = s.capValue := by
  unfold State.afterSnapshot; split <;> rfl
@[simp] theorem State.afterSnapshot_devAddr (s : State) : s.afterSnapshot.devAddr = s.devAddr := by
  unfold State.afterSnapshot; split <;> rfl
@[simp] theorem State.afterSnapshot_raw (s : State) : s.afterSnapshot.raw = s.raw := by
  unfold State.afterSnapshot; split <;> rfl
@[simp] theorem State.afterSnapshot_content (s : State) : s.afterSnapshot.content = s.content := by
  unfold State.afterSnapshot; split <;> rfl
@[simp] theorem State.afterSnapshot_txbuf (s : State) : s.afterSnapshot.txbuf = s.txbuf := by
  unfold State.afterSnapshot; split <;> rfl
@[simp] theorem State.afterSnapshot_rst (s : State) : s.afterSnapshot.rst = s.rst := by
  unfold State.afterSnapshot; split <;> rfl
@[simp] theorem State.afterSnapshot_tickCounter (s : State) : s.afterSnapshot.tickCounter = s.tickCounter := by
  unfold State.afterSnapshot; split <;> rfl
@[simp] theorem State.afterSnapshot_uptimeSeconds (s : State) : s.afterSnapshot.uptimeSeconds = s.uptimeSeconds := by
  unfold State.afterSnapshot; split <;> rfl
@[simp] theorem State.afterSnapshot_earlierUptimes (s : State) : s.afterSnapshot.earlierUptimes = s.earlierUptimes := by
  unfold State.afterSnapshot; split <;> rfl
@[simp] theorem State.afterSnapshot_inputs (s : State) : s.afterSnapshot.inputs = s.inputs := by
  unfold State.afterSnapshot; split <;> rfl
@[simp] theorem State.afterSnapshot_emitted (s : State) : s.afterSnapshot.emitted = s.emitted := by
  unfold State.afterSnapshot; split <;> rfl

/-! `State.setBuf`: the buffer named is replaced; every other field, and every other buffer, is the same. -/

@[simp] theorem State.buf_setBuf_same (s : State) (buf : BufId) (m : Memory) : (s.setBuf buf m).buf buf = m := by
  cases buf <;> rfl
@[simp] theorem State.setBuf_raw_raw (s : State) (m : Memory) : (s.setBuf .raw m).raw = m := rfl
@[simp] theorem State.setBuf_raw_content (s : State) (m : Memory) : (s.setBuf .raw m).content = s.content := rfl
@[simp] theorem State.setBuf_raw_txbuf (s : State) (m : Memory) : (s.setBuf .raw m).txbuf = s.txbuf := rfl
@[simp] theorem State.setBuf_content_raw (s : State) (m : Memory) : (s.setBuf .content m).raw = s.raw := rfl
@[simp] theorem State.setBuf_content_content (s : State) (m : Memory) : (s.setBuf .content m).content = m := rfl
@[simp] theorem State.setBuf_content_txbuf (s : State) (m : Memory) : (s.setBuf .content m).txbuf = s.txbuf := rfl
@[simp] theorem State.setBuf_txbuf_raw (s : State) (m : Memory) : (s.setBuf .txbuf m).raw = s.raw := rfl
@[simp] theorem State.setBuf_txbuf_content (s : State) (m : Memory) : (s.setBuf .txbuf m).content = s.content := rfl
@[simp] theorem State.setBuf_txbuf_txbuf (s : State) (m : Memory) : (s.setBuf .txbuf m).txbuf = m := rfl
@[simp] theorem State.setBuf_cfg (s : State) (buf : BufId) (m : Memory) : (s.setBuf buf m).cfg = s.cfg := by
  cases buf <;> rfl
@[simp] theorem State.setBuf_phase (s : State) (buf : BufId) (m : Memory) : (s.setBuf buf m).phase = s.phase := by
  cases buf <;> rfl
@[simp] theorem State.setBuf_rxState (s : State) (buf : BufId) (m : Memory) : (s.setBuf buf m).rxState = s.rxState := by
  cases buf <;> rfl
@[simp] theorem State.setBuf_rawLen (s : State) (buf : BufId) (m : Memory) : (s.setBuf buf m).rawLen = s.rawLen := by
  cases buf <;> rfl
@[simp] theorem State.setBuf_contentLen (s : State) (buf : BufId) (m : Memory) : (s.setBuf buf m).contentLen = s.contentLen := by
  cases buf <;> rfl
@[simp] theorem State.setBuf_cmd (s : State) (buf : BufId) (m : Memory) : (s.setBuf buf m).cmd = s.cmd := by
  cases buf <;> rfl
@[simp] theorem State.setBuf_expCrc (s : State) (buf : BufId) (m : Memory) : (s.setBuf buf m).expCrc = s.expCrc := by
  cases buf <;> rfl
@[simp] theorem State.setBuf_dcmd (s : State) (buf : BufId) (m : Memory) : (s.setBuf buf m).dcmd = s.dcmd := by
  cases buf <;> rfl
@[simp] theorem State.setBuf_dlen (s : State) (buf : BufId) (m : Memory) : (s.setBuf buf m).dlen = s.dlen := by
  cases buf <;> rfl
@[simp] theorem State.setBuf_txState (s : State) (buf : BufId) (m : Memory) : (s.setBuf buf m).txState = s.txState := by
  cases buf <;> rfl
@[simp] theorem State.setBuf_txLen (s : State) (buf : BufId) (m : Memory) : (s.setBuf buf m).txLen = s.txLen := by
  cases buf <;> rfl
@[simp] theorem State.setBuf_txIdx (s : State) (buf : BufId) (m : Memory) : (s.setBuf buf m).txIdx = s.txIdx := by
  cases buf <;> rfl
@[simp] theorem State.setBuf_de (s : State) (buf : BufId) (m : Memory) : (s.setBuf buf m).de = s.de := by
  cases buf <;> rfl
@[simp] theorem State.setBuf_capKind (s : State) (buf : BufId) (m : Memory) : (s.setBuf buf m).capKind = s.capKind := by
  cases buf <;> rfl
@[simp] theorem State.setBuf_capCh (s : State) (buf : BufId) (m : Memory) : (s.setBuf buf m).capCh = s.capCh := by
  cases buf <;> rfl
@[simp] theorem State.setBuf_capPort (s : State) (buf : BufId) (m : Memory) : (s.setBuf buf m).capPort = s.capPort := by
  cases buf <;> rfl
@[simp] theorem State.setBuf_capValue (s : State) (buf : BufId) (m : Memory) : (s.setBuf buf m).capValue = s.capValue := by
  cases buf <;> rfl
@[simp] theorem State.setBuf_devAddr (s : State) (buf : BufId) (m : Memory) : (s.setBuf buf m).devAddr = s.devAddr := by
  cases buf <;> rfl
@[simp] theorem State.setBuf_rst (s : State) (buf : BufId) (m : Memory) : (s.setBuf buf m).rst = s.rst := by
  cases buf <;> rfl
@[simp] theorem State.setBuf_tickCounter (s : State) (buf : BufId) (m : Memory) : (s.setBuf buf m).tickCounter = s.tickCounter := by
  cases buf <;> rfl
@[simp] theorem State.setBuf_uptimeSeconds (s : State) (buf : BufId) (m : Memory) : (s.setBuf buf m).uptimeSeconds = s.uptimeSeconds := by
  cases buf <;> rfl
@[simp] theorem State.setBuf_earlierUptimes (s : State) (buf : BufId) (m : Memory) : (s.setBuf buf m).earlierUptimes = s.earlierUptimes := by
  cases buf <;> rfl
@[simp] theorem State.setBuf_inputs (s : State) (buf : BufId) (m : Memory) : (s.setBuf buf m).inputs = s.inputs := by
  cases buf <;> rfl
@[simp] theorem State.setBuf_emitted (s : State) (buf : BufId) (m : Memory) : (s.setBuf buf m).emitted = s.emitted := by
  cases buf <;> rfl
@[simp] theorem State.setBuf_draws (s : State) (buf : BufId) (m : Memory) : (s.setBuf buf m).draws = s.draws := by
  cases buf <;> rfl

end Sys2Proof.Machine
end

