-- ==== Sys2Proof/Laws/Memory.lean ====
section
/-! SUPPORT. Buffers: read after write, the canonical form, and what each cell operation can do. -/

namespace Sys2Proof.Machine
open Sys2Proof.Safety

@[simp] theorem Memory.read_nil (i : Nat) : Memory.read [] i = none := rfl

/-- A cell reads as what was last written to it, and every other cell reads as before. -/
theorem Memory.read_write (m : Memory) (a : Nat) (v : Byte) (i : Nat) :
    Memory.read (Memory.write m a v) i = if i = a then some v else Memory.read m i := by
  induction m with
  | nil => simp [Memory.write, Memory.read, Memory.unlisted]
  | cons c m ih =>
    obtain ⟨j, b⟩ := c
    by_cases h1 : a < j
    · simp [Memory.write, Memory.read, h1]
    · by_cases h2 : a = j
      · subst h2
        by_cases h3 : i = a <;> simp [Memory.write, Memory.read, h3]
      · by_cases h3 : i = j
        · subst h3
          simp [Memory.write, Memory.read, h1, h2, Ne.symm h2]
        · simp [Memory.write, Memory.read, h1, h2, h3, ih]

@[simp] theorem Memory.read_write_same (m : Memory) (a : Nat) (v : Byte) :
    Memory.read (Memory.write m a v) a = some v := by
  simp [Memory.read_write]

theorem Memory.read_write_other (m : Memory) {a i : Nat} (v : Byte) (h : i ≠ a) :
    Memory.read (Memory.write m a v) i = Memory.read m i := by
  simp [Memory.read_write, h]

theorem Memory.wf_cons (i : Nat) (b : Byte) (m : Memory) :
    Memory.wf ((i, b) :: m) = true ↔ (∀ c ∈ m.head?, i < c.1) ∧ Memory.wf m = true := by
  cases m with
  | nil => simp [Memory.wf, Memory.unlisted]
  | cons c m => obtain ⟨j, d⟩ := c; simp [Memory.wf, Memory.unlisted]

theorem Memory.head_write (m : Memory) (a : Nat) (v : Byte) :
    ∀ c ∈ (Memory.write m a v).head?, c.1 = a ∨ c ∈ m.head? ∨ (∃ d ∈ m.head?, d.1 = c.1) := by
  cases m with
  | nil => simp [Memory.write]
  | cons c m =>
    obtain ⟨j, b⟩ := c
    by_cases h1 : a < j
    · simp [Memory.write, h1]
    · by_cases h2 : a = j <;> simp [Memory.write, h1, h2]

/-- A write keeps the canonical form. -/
theorem Memory.wf_write (m : Memory) (a : Nat) (v : Byte) (h : Memory.wf m = true) :
    Memory.wf (Memory.write m a v) = true := by
  induction m with
  | nil => simp [Memory.write, Memory.wf, Memory.unlisted]
  | cons c m ih =>
    obtain ⟨j, b⟩ := c
    have hm := (Memory.wf_cons j b m).1 h
    by_cases h1 : a < j
    · simp only [Memory.write, h1, ↓reduceIte]
      exact (Memory.wf_cons a v _).2 ⟨by simp [h1], h⟩
    · by_cases h2 : a = j
      · subst h2
        simp only [Memory.write, lt_irrefl, ↓reduceIte]
        exact (Memory.wf_cons a v m).2 hm
      · simp only [Memory.write, h1, h2, ↓reduceIte]
        refine (Memory.wf_cons j b _).2 ⟨fun c hc => ?_, ih hm.2⟩
        rcases Memory.head_write m a v c hc with hc | hc | ⟨d, hd, hc⟩
        · omega
        · exact hm.1 c hc
        · have := hm.1 d hd; omega

/-- Writing a run of bytes keeps the canonical form. -/
theorem fillFrom_wf (bs : List Byte) : ∀ (m : Memory) (i : Nat), Memory.wf m = true → Memory.wf (fillFrom m i bs) = true := by
  induction bs with
  | nil => exact fun m i h => h
  | cons b bs ih => exact fun m i h => ih _ _ (Memory.wf_write m i b h)

/-- A run of bytes reads back, and every cell outside it reads as before. -/
theorem fillFrom_read (bs : List Byte) : ∀ (m : Memory) (i a : Nat),
    Memory.read (fillFrom m i bs) a = if i ≤ a ∧ a < i + bs.length then bs[a - i]? else Memory.read m a := by
  induction bs with
  | nil => intro m i a; simp [fillFrom]
  | cons b bs ih =>
    intro m i a
    rw [fillFrom, ih, Memory.read_write]
    by_cases h : a = i
    · subst h; simp
    · by_cases h2 : i + 1 ≤ a ∧ a < i + 1 + bs.length
      · have h3 : i ≤ a ∧ a < i + (b :: bs).length := by simp; omega
        have h4 : a - i = (a - (i + 1)) + 1 := by omega
        simp [h2, h3.1, h4]; omega
      · have h3 : ¬ (i ≤ a ∧ a < i + (b :: bs).length) := by simp; omega
        rw [if_neg h2, if_neg h, if_neg h3]

/-! The bytes below an index. -/

@[simp] theorem bytesBelow_zero (m : Memory) : bytesBelow m 0 = [] := rfl

theorem bytesBelow_succ (m : Memory) (n : Nat) :
    bytesBelow m (n + 1) = bytesBelow m n ++ (Memory.read m n).toList := by
  simp only [bytesBelow, List.range_succ, List.filterMap_append, List.filterMap_cons, List.filterMap_nil]
  cases Memory.read m n <;> rfl

theorem bytesBelow_length_le (m : Memory) (n : Nat) : (bytesBelow m n).length ≤ n :=
  (List.length_filterMap_le _ _).trans (by simp)

/-- Only the cells below the index matter. -/
theorem bytesBelow_congr {m m' : Memory} {n : Nat} (h : ∀ a < n, Memory.read m' a = Memory.read m a) :
    bytesBelow m' n = bytesBelow m n :=
  List.filterMap_congr fun a ha => h a (List.mem_range.1 ha)

/-- Writing the cell at the end of a run adds one byte to it. -/
theorem bytesBelow_write_end (m : Memory) (n : Nat) (v : Byte) :
    bytesBelow (Memory.write m n v) (n + 1) = bytesBelow m n ++ [v] := by
  rw [bytesBelow_succ, Memory.read_write_same, bytesBelow_congr (m := m)]
  · rfl
  · intro a ha; exact Memory.read_write_other m v (by omega)

/-- A run without gaps: each cell below the index is listed, with the byte at its place. -/
theorem bytesBelow_full_read {m : Memory} {n : Nat} (h : (bytesBelow m n).length = n) :
    ∀ a < n, Memory.read m a = (bytesBelow m n)[a]? := by
  induction n with
  | zero => simp
  | succ n ih =>
    rw [bytesBelow_succ] at h ⊢
    have hn := bytesBelow_length_le m n
    cases hr : Memory.read m n with
    | none => simp [hr] at h; omega
    | some b =>
      have hl : (bytesBelow m n).length = n := by simp [hr] at h; omega
      intro a ha
      by_cases h2 : a = n
      · subst h2; rw [hr, List.getElem?_append_right (by omega)]; simp [hl]
      · rw [ih hl a (by omega), List.getElem?_append_left (by omega)]

/-- Conversely, cells that read as the bytes of a list are that list. -/
theorem bytesBelow_of_read {m : Memory} (bs : List Byte) (h : ∀ a < bs.length, Memory.read m a = bs[a]?) :
    bytesBelow m bs.length = bs := by
  induction bs using List.reverseRecOn with
  | nil => rfl
  | append_singleton bs b ih =>
    have h1 : bytesBelow m bs.length = bs := ih fun a ha => by
      rw [h a (by simp; omega), List.getElem?_append_left ha]
    rw [List.length_append, List.length_singleton, bytesBelow_succ, h1, h bs.length (by simp)]
    simp

/-- A buffer filled from cell 0 holds exactly the bytes written. -/
theorem bytesBelow_fillFrom (m : Memory) (bs : List Byte) : bytesBelow (fillFrom m 0 bs) bs.length = bs := by
  apply bytesBelow_of_read
  intro a ha
  rw [fillFrom_read]; simp [ha]

/-! What the cell operations can do. -/

/-- A read that answers gives the listed byte of a cell below the valid length and the capacity. -/
theorem memRead_ok {s : State} {buf : BufId} {i : Nat} {b : Byte} :
    memRead s buf i = .ok b ↔
      i < bufCap s.cfg buf ∧ i < s.validLen buf ∧ Memory.read (s.buf buf) i = some b := by
  unfold memRead
  split
  · simp; omega
  · split
    · simp; omega
    · rename_i h1 h2
      have h1 := not_le.1 h1
      have h2 := not_le.1 h2
      cases Memory.read (s.buf buf) i <;> simp [h1, h2]

/-- A write that answers changes one cell of one buffer, and nothing else. -/
theorem memWrite_ok {s t : State} {buf : BufId} {i : Nat} {v : Byte} :
    memWrite s buf i v = .ok t ↔ i < bufCap s.cfg buf ∧ t = s.setBuf buf (Memory.write (s.buf buf) i v) := by
  unfold memWrite
  split
  · simp; omega
  · simp; constructor
    · rintro rfl; exact ⟨by omega, rfl⟩
    · rintro ⟨-, rfl⟩; rfl

theorem memWrite_of_lt {s : State} {buf : BufId} {i : Nat} {v : Byte} (h : i < bufCap s.cfg buf) :
    memWrite s buf i v = .ok (s.setBuf buf (Memory.write (s.buf buf) i v)) :=
  memWrite_ok.2 ⟨h, rfl⟩

/-- A prefix that can be read is the listed bytes, without a gap. -/
theorem readPrefix_ok {s : State} {buf : BufId} {n : Nat} {bs : List Byte} (h : readPrefix s buf n = .ok bs) :
    bs = bytesBelow (s.buf buf) n ∧ bs.length = n := by
  induction n generalizing bs with
  | zero => simp only [readPrefix, Except.ok.injEq] at h; subst h; simp
  | succ n ih =>
    simp only [readPrefix] at h
    split at h
    · cases h
    · rename_i bs' hp
      split at h
      · cases h
      · rename_i b hb
        obtain ⟨-, -, hr⟩ := memRead_ok.1 hb
        obtain ⟨h1, h2⟩ := ih hp
        cases h
        rw [bytesBelow_succ, hr, ← h1]
        simp [h2]

/-- A prefix within the valid length and the capacity can be read if it has no gap. -/
theorem readPrefix_of_full {s : State} {buf : BufId} {n : Nat} (hc : n ≤ bufCap s.cfg buf) (hv : n ≤ s.validLen buf)
    (hf : (bytesBelow (s.buf buf) n).length = n) : readPrefix s buf n = .ok (bytesBelow (s.buf buf) n) := by
  induction n with
  | zero => rfl
  | succ n ih =>
    have hr := bytesBelow_full_read hf
    rw [bytesBelow_succ] at hf ⊢
    have hn := bytesBelow_length_le (s.buf buf) n
    cases hb : Memory.read (s.buf buf) n with
    | none => simp [hb] at hf; omega
    | some b =>
      have hl : (bytesBelow (s.buf buf) n).length = n := by simp [hb] at hf; omega
      have hm : memRead s buf n = .ok b := memRead_ok.2 ⟨by omega, by omega, hb⟩
      simp only [readPrefix, ih (by omega) (by omega) hl, hm]
      rfl

theorem State.setBuf_setBuf (s : State) (buf : BufId) (m m' : Memory) :
    (s.setBuf buf m).setBuf buf m' = s.setBuf buf m' := by
  cases buf <;> rfl

theorem State.setBuf_buf (s : State) (buf : BufId) : s.setBuf buf (s.buf buf) = s := by
  cases buf <;> rfl

/-- A run of bytes within the capacity is written whole. -/
theorem writeFrom_of_le (bs : List Byte) : ∀ (s : State) (buf : BufId) (i : Nat), i + bs.length ≤ bufCap s.cfg buf →
    writeFrom s buf i bs = .ok (s.setBuf buf (fillFrom (s.buf buf) i bs)) := by
  induction bs with
  | nil => intro s buf i _; simp [writeFrom, fillFrom, State.setBuf_buf]
  | cons b bs ih =>
    intro s buf i h
    simp only [List.length_cons] at h
    rw [writeFrom, memWrite_of_lt (by omega)]
    simp only []
    rw [ih _ _ _ (by simp; omega), State.buf_setBuf_same, State.setBuf_setBuf, fillFrom]

end Sys2Proof.Machine
end

