-- ==== Sys2Proof/Laws/Ops.lean ====
section
/-! SUPPORT. One lemma per shared operation, saying once everything it can do. -/

namespace Sys2Proof.Machine
open Sys2Proof.Safety

theorem toOutcome_next {r : Except Fault State} {t : State} : toOutcome r = .next t ↔ r = .ok t := by
  cases r <;> simp [toOutcome]

theorem toOutcome_fault {r : Except Fault State} {f : Fault} : toOutcome r = .fault f ↔ r = .error f := by
  cases r <;> simp [toOutcome]

theorem toOutcome_not_refused {r : Except Fault State} {x : Refusal} : toOutcome r ≠ .refused x := by
  cases r <;> simp [toOutcome]

/-- R13: appending to `RAW` writes the cell at `RAW_LEN` and counts it. -/
theorem appendRaw_ok {b : Byte} {s t : State} : appendRaw b s = .ok t ↔
    s.rawLen < s.cfg.rawCap ∧ t = { s with raw := Memory.write s.raw s.rawLen b, rawLen := s.rawLen + 1 } := by
  unfold appendRaw
  cases h : memWrite s .raw s.rawLen b with
  | error f =>
    have hn : ¬ s.rawLen < s.cfg.rawCap := fun hl => by
      rw [memWrite_of_lt (buf := .raw) hl] at h; cases h
    simp [hn]
  | ok s' =>
    obtain ⟨hl, rfl⟩ := memWrite_ok.1 h
    simp only [Except.ok.injEq]
    exact ⟨fun e => ⟨hl, e.symm⟩, fun e => e.2.symm⟩

/-- R13: appending to `CONTENT` writes the cell at `CONTENT_LEN` and counts it. -/
theorem appendContent_ok {b : Byte} {s t : State} : appendContent b s = .ok t ↔
    s.contentLen < s.cfg.contentCap
      ∧ t = { s with content := Memory.write s.content s.contentLen b, contentLen := s.contentLen + 1 } := by
  unfold appendContent
  cases h : memWrite s .content s.contentLen b with
  | error f =>
    have hn : ¬ s.contentLen < s.cfg.contentCap := fun hl => by
      rw [memWrite_of_lt (buf := .content) hl] at h; cases h
    simp [hn]
  | ok s' =>
    obtain ⟨hl, rfl⟩ := memWrite_ok.1 h
    simp only [Except.ok.injEq]
    exact ⟨fun e => ⟨hl, e.symm⟩, fun e => e.2.symm⟩

/-- R123: a session starts with the SOH in cell 0 of `RAW`. -/
theorem startSession_ok {s t : State} : startSession s = .ok t ↔
    0 < s.cfg.rawCap
      ∧ t = { s with raw := Memory.write s.raw 0 soh, rawLen := 1, contentLen := 0, rxState := .addr0 } := by
  unfold startSession
  cases h : memWrite s .raw 0 soh with
  | error f =>
    have hn : ¬ 0 < s.cfg.rawCap := fun hl => by
      rw [memWrite_of_lt (buf := .raw) hl] at h; cases h
    simp only [hn, false_and, iff_false]; exact fun h => nomatch h
  | ok s' =>
    obtain ⟨hl, rfl⟩ := memWrite_ok.1 h
    simp only [Except.ok.injEq]
    exact ⟨fun e => ⟨hl, e.symm⟩, fun e => e.2.symm⟩

/-- R138: acceptance latches the letter and the content length and ends the session. -/
theorem accept_ok {s t : State} : accept s = .ok t ↔
    s.rxState.hasCmd = true
      ∧ t = { s with dcmd := s.cmd, dlen := s.contentLen, rxState := .idle, rawLen := 0, contentLen := 0
                     phase := .dispatch, earlierUptimes := [] } := by
  unfold accept readCmd
  cases h : s.rxState.hasCmd
  · simp
  · simp only [↓reduceIte, Except.ok.injEq, true_and]; exact eq_comm

@[simp] theorem hex4_length (v : BitVec 16) : (hex4 v).length = 4 := rfl

@[simp] theorem frameBody_length (a0 a1 cmd : Byte) (k : List Byte) : (frameBody a0 a1 cmd k).length = 7 + k.length := by
  simp [frameBody]; omega

/-- R73: a frame with content length `n` is `11 + n` bytes. -/
@[simp] theorem frame_length (v : CrcVariant) (a0 a1 cmd : Byte) (k : List Byte) :
    (frame v a0 a1 cmd k).length = 11 + k.length := by
  simp [frame]; omega

@[simp] theorem responseFrame_length (v : CrcVariant) (cmd : Byte) (k : List Byte) :
    (responseFrame v cmd k).length = 11 + k.length := frame_length ..

@[simp] theorem requestFrame_length (v : CrcVariant) (a : BitVec 5) (cmd : Byte) (k : List Byte) :
    (requestFrame v a cmd k).length = 11 + k.length := frame_length ..

/-- R200: a response that is built stands in `TXBUF` whole and the sequencer begins. -/
theorem respond_ok {k : List Byte} {s t : State} : respond k s = .ok t ↔
    k.length ≤ s.cfg.respContentCap ∧ s.phase ≠ .rx
      ∧ t = (s.setBuf .txbuf (fillFrom s.txbuf 0 (responseFrame s.cfg.crc s.dcmd k))).beginTx (11 + k.length) := by
  unfold respond readDcmd
  by_cases hk : s.cfg.respContentCap < k.length
  · simp [hk]
  · by_cases hp : s.phase = .rx
    · simp [hk, hp]
    · have hw := writeFrom_of_le (responseFrame s.cfg.crc s.dcmd k) s .txbuf 0 (by
        simp only [responseFrame_length, bufCap]; omega)
      simp only [hk, hp, ↓reduceIte, hw, Except.ok.injEq, responseFrame_length, ne_eq, not_false_eq_true, true_and,
        not_lt.1 hk, State.buf]
      exact eq_comm

/-- R200, D20: a response faults only outside the phases that hold `DCMD`, or on a content that is too long. -/
theorem respond_error {k : List Byte} {s : State} {f : Fault} : respond k s = .error f ↔
    (s.cfg.respContentCap < k.length ∧ f = .responseTooLong k.length)
      ∨ (k.length ≤ s.cfg.respContentCap ∧ s.phase = .rx ∧ f = .unspecifiedRegister .dcmd) := by
  unfold respond readDcmd
  by_cases hk : s.cfg.respContentCap < k.length
  · simp [hk, eq_comm]
  · by_cases hp : s.phase = .rx
    · simp [hk, hp, not_lt.1 hk, eq_comm]
    · have hw := writeFrom_of_le (responseFrame s.cfg.crc s.dcmd k) s .txbuf 0 (by
        simp only [responseFrame_length, bufCap]; omega)
      simp [hk, hp, hw]

/-- R85: the error payloads are at most 18 bytes. -/
theorem errorContent_length (e : ErrorName) : (errorContent e).length ≤ 18 := by
  cases e <;> decide

/-- What a response leaves, in the words of the statements. -/
theorem respondsWith_of_ok {k : List Byte} {s t : State} (h : respond k s = .ok t) : RespondsWith k s t := by
  obtain ⟨-, -, rfl⟩ := respond_ok.1 h
  refine ⟨rfl, rfl, rfl, rfl, rfl, fun a => ?_, ?_⟩
  · simp only [State.beginTx_txbuf, State.setBuf_txbuf_txbuf]
    rw [fillFrom_read, responseFrame_length]
    simp only [Nat.zero_le, true_and, Nat.zero_add, Nat.sub_zero]
    rfl
  · exact ⟨rfl, rfl, rfl, rfl, rfl, rfl, rfl, rfl, rfl, rfl, rfl, rfl, rfl, rfl, rfl, rfl, rfl, rfl, rfl, rfl,
      fun _ => rfl, fun _ => rfl⟩

/-- A response can be built in any phase but `RX` if its content fits. -/
theorem respond_of_fits {k : List Byte} {s : State} (hk : k.length ≤ s.cfg.respContentCap) (hp : s.phase ≠ .rx) :
    ∃ t, respond k s = .ok t ∧ RespondsWith k s t :=
  ⟨_, respond_ok.2 ⟨hk, hp, rfl⟩, respondsWith_of_ok (respond_ok.2 ⟨hk, hp, rfl⟩)⟩

/-- R206: a transmit event hands over the byte at `TX_IDX`. -/
theorem txTakeByte_ok {s t : State} : txTakeByte s = .ok t ↔
    ∃ b, s.txState = .send ∧ memRead s .txbuf s.txIdx = .ok b
      ∧ t = { s with txIdx := s.txIdx + 1, txState := if s.txIdx + 1 = s.txLen then .drain else .send
                     emitted := s.emitted ++ [.txByte b] } := by
  unfold txTakeByte txData
  by_cases hs : s.txState = .send
  · cases hb : memRead s .txbuf s.txIdx with
    | error f => simp [hs]
    | ok b => simp only [hs, ↓reduceIte, Except.ok.injEq, true_and, exists_eq_left']; exact eq_comm
  · simp [hs]

/-- R60, U7: a snapshot is one of the values held since the acceptance of the frame, in `UPTIME_W` bits. -/
theorem State.snapshotUptime_held (s : State) : ∃ u ∈ s.uptimesHeld, s.snapshotUptime = u % 2 ^ s.cfg.uptimeW := by
  refine ⟨s.sampledUptime, ?_, rfl⟩
  unfold State.sampledUptime
  split
  · simp [State.uptimesHeld]
  · have hlen : 0 < s.uptimesHeld.length := by simp [State.uptimesHeld]
    rw [List.getD_eq_getElem _ _ (Nat.mod_lt _ hlen)]
    exact List.getElem_mem _

/-- With no firing that changed the uptime since the acceptance, a snapshot is the present uptime. -/
theorem State.snapshotUptime_of_unchanged {s : State} (h : s.earlierUptimes = []) :
    s.snapshotUptime = s.uptimeSeconds % 2 ^ s.cfg.uptimeW := by
  simp [State.snapshotUptime, State.sampledUptime, h]

/-- Behind a snapshot only the counter of free values can differ. -/
theorem State.afterSnapshot_eq (s : State) : s.afterSnapshot = { s with draws := s.afterSnapshot.draws } := by
  unfold State.afterSnapshot; split <;> rfl

/-! Every memory operation keeps the canonical form. -/

theorem reset_memoryOk : memoryOk State.reset = true := rfl

theorem memoryOk_setBuf {s : State} (buf : BufId) {m : Memory} (h : memoryOk s = true) (hm : Memory.wf m = true) :
    memoryOk (s.setBuf buf m) = true := by
  simp only [memoryOk, Bool.and_eq_true] at h ⊢
  cases buf <;> simp [h, hm]

theorem memoryOk_buf {s : State} (buf : BufId) (h : memoryOk s = true) : Memory.wf (s.buf buf) = true := by
  simp only [memoryOk, Bool.and_eq_true] at h
  cases buf <;> simp [State.buf, h]

theorem memWrite_memoryOk {s t : State} {buf : BufId} {i : Nat} {v : Byte} (h : memoryOk s = true)
    (hw : memWrite s buf i v = .ok t) : memoryOk t = true := by
  obtain ⟨-, rfl⟩ := memWrite_ok.1 hw
  exact memoryOk_setBuf buf h (Memory.wf_write _ i v (memoryOk_buf buf h))

theorem writeFrom_memoryOk (bs : List Byte) : ∀ {s t : State} {buf : BufId} {i : Nat}, memoryOk s = true →
    writeFrom s buf i bs = .ok t → memoryOk t = true := by
  induction bs with
  | nil => intro s t buf i h hw; cases hw; exact h
  | cons b bs ih =>
    intro s t buf i h hw
    rw [writeFrom] at hw
    split at hw
    · cases hw
    · rename_i s' hs
      exact ih (memWrite_memoryOk h hs) hw

theorem appendRaw_memoryOk {s t : State} {b : Byte} (h : memoryOk s = true) (hw : appendRaw b s = .ok t) :
    memoryOk t = true := by
  obtain ⟨-, rfl⟩ := appendRaw_ok.1 hw
  exact memoryOk_setBuf .raw h (Memory.wf_write _ _ b (memoryOk_buf .raw h))

theorem appendContent_memoryOk {s t : State} {b : Byte} (h : memoryOk s = true) (hw : appendContent b s = .ok t) :
    memoryOk t = true := by
  obtain ⟨-, rfl⟩ := appendContent_ok.1 hw
  exact memoryOk_setBuf .content h (Memory.wf_write _ _ b (memoryOk_buf .content h))

theorem startSession_memoryOk {s t : State} (h : memoryOk s = true) (hw : startSession s = .ok t) :
    memoryOk t = true := by
  obtain ⟨-, rfl⟩ := startSession_ok.1 hw
  exact memoryOk_setBuf .raw h (Memory.wf_write _ _ _ (memoryOk_buf .raw h))

theorem respond_memoryOk {s t : State} {k : List Byte} (h : memoryOk s = true) (hw : respond k s = .ok t) :
    memoryOk t = true := by
  obtain ⟨-, -, rfl⟩ := respond_ok.1 hw
  have := memoryOk_setBuf .txbuf h (fillFrom_wf (responseFrame s.cfg.crc s.dcmd k) _ 0 (memoryOk_buf .txbuf h))
  exact this

theorem resetAssert_memoryOk (s : State) : memoryOk (resetAssert s) = true := rfl

end Sys2Proof.Machine
end

