-- ==== Sys2Proof/Laws/Engine.lean ====
section
/-! SUPPORT. What a receive step, a transmit step, a command and a whole step can do, each said once. -/

namespace Sys2Proof.Machine
open Sys2Proof.Safety

/-- The address digit, separator or marker that a header state expects, and the state it leads to (R126 to R128, R130). -/
def headerExpects (addr : BitVec 5) : RxState → Option (Byte × RxState)
  | .addr0 => some (addrCh0 addr, .addr1)
  | .addr1 => some (addrCh1 addr, .sep)
  | .sep => some (colon, .cmd)
  | .cstart => some (stx, .content)
  | _ => none

/-- The bit a checksum state compares from, and the state it leads to (R134 to R136). -/
def digitExpects : RxState → Option (Nat × RxState)
  | .ck0 => some (12, .ck1)
  | .ck1 => some (8, .ck2)
  | .ck2 => some (4, .ck3)
  | _ => none

/-- Everything a receive step that answers can do, with the rule of spec/41_receive.md each case follows. -/
inductive RxStep (s : State) (b : Byte) (ferr : Bool) : State → Prop
  /-- R122, R125. -/
  | discard (h : ferr = true ∨ (b ≠ soh ∧ s.rxState = .idle)) : RxStep s b ferr s
  /-- R121, from R124, R126 to R131 and R134 to R137. -/
  | abort (h : ferr = false) (hs : s.rxState ≠ .idle) : RxStep s b ferr s.abort
  /-- R123. -/
  | start (h : ferr = false) (hb : b = soh) (hc : 0 < s.cfg.rawCap) :
      RxStep s b ferr { s with raw := Memory.write s.raw 0 soh, rawLen := 1, contentLen := 0, rxState := .addr0 }
  /-- R126 to R128, R130. -/
  | header (after : RxState) (h : ferr = false) (hs : headerExpects s.devAddr s.rxState = some (b, after))
      (hc : s.rawLen < s.cfg.rawCap) :
      RxStep s b ferr { s with raw := Memory.write s.raw s.rawLen b, rawLen := s.rawLen + 1, rxState := after }
  /-- R129. -/
  | letter (h : ferr = false) (hs : s.rxState = .cmd) (hb : isLetter b = true) (hc : s.rawLen < s.cfg.rawCap) :
      RxStep s b ferr
        { s with raw := Memory.write s.raw s.rawLen b, rawLen := s.rawLen + 1, cmd := b, rxState := .cstart }
  /-- R133, with room in `CONTENT`. -/
  | dataKept (h : ferr = false) (hs : s.rxState = .content) (hb : b ≠ soh ∧ b ≠ etx) (hc : s.rawLen < s.cfg.rawCap)
      (hk : s.contentLen < s.cfg.contentCap) :
      RxStep s b ferr
        { s with raw := Memory.write s.raw s.rawLen b, rawLen := s.rawLen + 1
                 content := Memory.write s.content s.contentLen b, contentLen := s.contentLen + 1 }
  /-- R133, with `CONTENT` full. -/
  | dataDropped (h : ferr = false) (hs : s.rxState = .content) (hb : b ≠ soh ∧ b ≠ etx) (hc : s.rawLen < s.cfg.rawCap)
      (hk : s.cfg.contentCap ≤ s.contentLen) :
      RxStep s b ferr { s with raw := Memory.write s.raw s.rawLen b, rawLen := s.rawLen + 1 }
  /-- R132. -/
  | contentEnd (h : ferr = false) (hs : s.rxState = .content) (hb : b = etx) (hc : s.rawLen < s.cfg.rawCap)
      (hf : (bytesBelow s.raw s.rawLen).length = s.rawLen) :
      RxStep s b ferr
        { s with raw := Memory.write s.raw s.rawLen etx, rawLen := s.rawLen + 1
                 expCrc := crc16 s.cfg.crc (bytesBelow s.raw s.rawLen ++ [etx]), rxState := .ck0 }
  /-- R134 to R136. -/
  | digit (lo : Nat) (after : RxState) (h : ferr = false) (hs : digitExpects s.rxState = some (lo, after))
      (hb : b = hex1 (s.expCrc.extractLsb' lo 4)) : RxStep s b ferr { s with rxState := after }
  /-- R137, R138. -/
  | accepted (h : ferr = false) (hs : s.rxState = .ck3) (hb : b = hex1 (s.expCrc.extractLsb' 0 4)) :
      RxStep s b ferr
        { s with dcmd := s.cmd, dlen := s.contentLen, rxState := .idle, rawLen := 0, contentLen := 0
                 phase := .dispatch, earlierUptimes := [] }

theorem rxExpect_cases {want b : Byte} {after : RxState} {s t : State} (h : rxExpect want after b s = .ok t) :
    (b = want ∧ s.rawLen < s.cfg.rawCap
        ∧ t = { s with raw := Memory.write s.raw s.rawLen b, rawLen := s.rawLen + 1, rxState := after })
      ∨ t = s.abort := by
  unfold rxExpect at h
  split at h
  · rename_i hb
    split at h
    · cases h
    · rename_i s' ha
      obtain ⟨hl, rfl⟩ := appendRaw_ok.1 ha
      cases h
      exact .inl ⟨hb, hl, rfl⟩
  · cases h; exact .inr rfl

theorem rxContentEnd_ok {s t : State} : rxContentEnd s = .ok t ↔
    s.rawLen < s.cfg.rawCap ∧ (bytesBelow s.raw s.rawLen).length = s.rawLen
      ∧ t = { s with raw := Memory.write s.raw s.rawLen etx, rawLen := s.rawLen + 1
                     expCrc := crc16 s.cfg.crc (bytesBelow s.raw s.rawLen ++ [etx]), rxState := .ck0 } := by
  unfold rxContentEnd
  cases ha : appendRaw etx s with
  | error f =>
    have hn : ¬ s.rawLen < s.cfg.rawCap := fun hl => by rw [appendRaw_ok.2 ⟨hl, rfl⟩] at ha; cases ha
    simp [hn]
  | ok s' =>
    obtain ⟨hl, rfl⟩ := appendRaw_ok.1 ha
    have hbelow := bytesBelow_write_end s.raw s.rawLen etx
    by_cases hf : (bytesBelow s.raw s.rawLen).length = s.rawLen
    · have hp := readPrefix_of_full (buf := .raw) (n := s.rawLen + 1)
        (s := { s with raw := Memory.write s.raw s.rawLen etx, rawLen := s.rawLen + 1 })
        (by simp only [bufCap]; omega) (by simp [State.validLen])
        (by simp only [State.buf]; rw [hbelow]; simp [hf])
      simp only [State.buf] at hp
      rw [hbelow] at hp
      simp only [hp, Except.ok.injEq]
      exact ⟨fun e => ⟨hl, hf, e.symm⟩, fun e => e.2.2.symm⟩
    · simp only [hf, false_and, and_false, iff_false]
      intro h
      split at h
      · cases h
      · rename_i bytes hp
        have h2 := readPrefix_ok hp
        simp only [State.buf] at h2
        rw [hbelow] at h2
        rw [h2.1] at h2
        simp at h2
        exact hf h2

theorem rxDigit_cases {lo : Nat} {matched : State → Except Fault State} {b : Byte} {s t : State}
    (h : rxDigit lo matched b s = .ok t) :
    (s.rxState.hasExpCrc = true ∧ b = hex1 (s.expCrc.extractLsb' lo 4) ∧ matched s = .ok t) ∨ t = s.abort := by
  unfold rxDigit readExpCrc at h
  split at h
  · rename_i heq
    split at heq <;> cases heq
    cases h
  · rename_i heq
    split at heq <;> cases heq
    rename_i hs
    split at h
    · exact .inl ⟨hs, ‹_›, h⟩
    · cases h; exact .inr rfl

/-- R120 to R138: what a receive step can do. -/
theorem receive_cases {b : Byte} {ferr : Bool} {s t : State} (h : receive b ferr s = .ok t) : RxStep s b ferr t := by
  unfold receive at h
  split at h
  · cases h; exact .discard (.inl ‹_›)
  rename_i hf
  have hf : ferr = false := by simpa using hf
  split at h
  · rename_i hb
    unfold rxSoh at h
    split at h
    · rename_i ha
      cases h; exact .abort hf (by simp [ha.1])
    · obtain ⟨hc, rfl⟩ := startSession_ok.1 h
      exact .start hf hb hc
  rename_i hb
  unfold rxByState at h
  split at h <;> rename_i hs
  · cases h; exact .discard (.inr ⟨hb, hs⟩)
  · rcases rxExpect_cases h with ⟨e, hc, rfl⟩ | rfl
    · exact .header _ hf (by simp [headerExpects, hs, e]) hc
    · exact .abort hf (by simp [hs])
  · rcases rxExpect_cases h with ⟨e, hc, rfl⟩ | rfl
    · exact .header _ hf (by simp [headerExpects, hs, e]) hc
    · exact .abort hf (by simp [hs])
  · rcases rxExpect_cases h with ⟨e, hc, rfl⟩ | rfl
    · exact .header _ hf (by simp [headerExpects, hs, e]) hc
    · exact .abort hf (by simp [hs])
  · unfold rxCmd at h
    split at h
    · rename_i hl
      split at h
      · cases h
      · rename_i s' ha
        obtain ⟨hc, rfl⟩ := appendRaw_ok.1 ha
        cases h
        exact .letter hf hs hl hc
    · cases h; exact .abort hf (by simp [hs])
  · rcases rxExpect_cases h with ⟨e, hc, rfl⟩ | rfl
    · exact .header _ hf (by simp [headerExpects, hs, e]) hc
    · exact .abort hf (by simp [hs])
  · unfold rxContent at h
    split at h
    · cases h; exact .abort hf (by simp [hs])
    split at h
    · rename_i he
      obtain ⟨hc, hfull, rfl⟩ := rxContentEnd_ok.1 h
      exact .contentEnd hf hs he hc hfull
    · rename_i he
      unfold rxContentData at h
      split at h
      · cases h
      · rename_i s' ha
        obtain ⟨hc, rfl⟩ := appendRaw_ok.1 ha
        split at h
        · rename_i hk
          obtain ⟨-, rfl⟩ := appendContent_ok.1 h
          exact .dataKept hf hs ⟨hb, he⟩ hc hk
        · rename_i hk
          cases h
          exact .dataDropped hf hs ⟨hb, he⟩ hc (not_lt.1 hk)
  · rcases rxDigit_cases h with ⟨-, e, ht⟩ | rfl
    · cases ht; exact .digit 12 .ck1 hf (by simp [digitExpects, hs]) e
    · exact .abort hf (by simp [hs])
  · rcases rxDigit_cases h with ⟨-, e, ht⟩ | rfl
    · cases ht; exact .digit 8 .ck2 hf (by simp [digitExpects, hs]) e
    · exact .abort hf (by simp [hs])
  · rcases rxDigit_cases h with ⟨-, e, ht⟩ | rfl
    · cases ht; exact .digit 4 .ck3 hf (by simp [digitExpects, hs]) e
    · exact .abort hf (by simp [hs])
  · rcases rxDigit_cases h with ⟨-, e, ht⟩ | rfl
    · obtain ⟨-, rfl⟩ := accept_ok.1 ht
      exact .accepted hf hs e
    · exact .abort hf (by simp [hs])

/-- Everything a command that answers can do: build a response (`P` may have drawn a free value before), issue one capability
request, or return to receiving. -/
theorem exec_cases {i : Instr} {s t : State} (h : exec i s = .next t) :
    (∃ k n, respond k { s with draws := n } = .ok t)
      ∨ (∃ c channel port d, i = .r c ∧ operandR s.cfg c = some (channel, port) ∧ s.cfg.registry[channel]? = some d
          ∧ port < d.portCount ∧ t = s.requestRead channel port)
      ∨ (∃ c channel port value d, i = .w c ∧ operandW s.cfg c = some (channel, port, value)
          ∧ s.cfg.registry[channel]? = some d ∧ d.access = .readWrite ∧ port < d.portCount
          ∧ t = s.requestWrite channel port value)
      ∨ t = s.noResponse := by
  cases i with
  | p c => exact .inl ⟨_, _, State.afterSnapshot_eq s ▸ toOutcome_next.1 h⟩
  | d c =>
    simp only [exec, execD] at h
    split at h
    · exact .inl ⟨_, s.draws, toOutcome_next.1 h⟩
    · split at h <;> exact .inl ⟨_, s.draws, toOutcome_next.1 h⟩
  | r c =>
    simp only [exec, execR] at h
    split at h
    · exact .inl ⟨_, s.draws, toOutcome_next.1 h⟩
    · rename_i channel port hop
      split at h
      · exact .inl ⟨_, s.draws, toOutcome_next.1 h⟩
      · rename_i d hd
        split at h
        · exact .inl ⟨_, s.draws, toOutcome_next.1 h⟩
        · rename_i hp
          cases h
          exact .inr (.inl ⟨c, channel, port, d, rfl, hop, hd, not_le.1 hp, rfl⟩)
  | w c =>
    simp only [exec, execW] at h
    split at h
    · exact .inl ⟨_, s.draws, toOutcome_next.1 h⟩
    · rename_i channel port value hop
      split at h
      · exact .inl ⟨_, s.draws, toOutcome_next.1 h⟩
      · rename_i d hd
        split at h
        · exact .inl ⟨_, s.draws, toOutcome_next.1 h⟩
        · rename_i ha
          split at h
          · exact .inl ⟨_, s.draws, toOutcome_next.1 h⟩
          · rename_i hp
            cases h
            refine .inr (.inr (.inl ⟨c, channel, port, value, d, rfl, hop, hd, ?_, not_le.1 hp, rfl⟩))
            cases hd' : d.access
            · exact absurd hd' ha
            · rfl
  | _ c => cases h; exact .inr (.inr (.inr rfl))

/-- R160, R161: a dispatch that answers has read the accepted frame's command word and run its instruction. -/
theorem dispatch_next {s t : State} (h : dispatch s = .next t) :
    ∃ bytes i, fetch s = .ok bytes ∧ decode bytes = .ok i ∧ exec i s = .next t := by
  unfold dispatch at h
  split at h
  · cases h
  · rename_i bytes hf
    split at h
    · cases h
    · rename_i i hd
      exact ⟨bytes, i, hf, hd, h⟩

/-- R205 to R208: everything a transmit step can do. -/
theorem transmit_cases {i : Inputs} {s t : State} (h : transmit i s = .ok t) :
    t = s ∨ (s.txState = .pre ∧ t = txPreDone s) ∨ (s.txState = .send ∧ txTakeByte s = .ok t)
      ∨ (s.txState = .drain ∧ t = txDrained s) ∨ (s.txState = .post ∧ t = s.returnToRx) := by
  unfold transmit at h
  split at h <;> rename_i hs
  · cases h; exact .inl rfl
  · split at h <;> cases h
    · exact .inr (.inl ⟨hs, rfl⟩)
    · exact .inl rfl
  · split at h
    · exact .inr (.inr (.inl ⟨hs, h⟩))
    · cases h; exact .inl rfl
  · split at h <;> cases h
    · exact .inr (.inr (.inr (.inl ⟨hs, rfl⟩)))
    · exact .inl rfl
  · split at h <;> cases h
    · exact .inr (.inr (.inr (.inr ⟨hs, rfl⟩)))
    · exact .inl rfl

/-- R168 to R170, R173: everything a capability answer can do. -/
theorem capabilityAnswer_cases {i : Inputs} {s t : State} (h : capabilityAnswer i s = .ok t) :
    t = s ∨ (i.capRspValid = true ∧ s.capKind = .read ∧ respond i.capRspContent { s with capKind := .none } = .ok t)
      ∨ (i.capRspValid = true ∧ s.capKind = .write ∧ respond [ack] { s with capKind := .none } = .ok t) := by
  unfold capabilityAnswer at h
  split at h
  · rename_i hv
    split at h <;> rename_i hk
    · cases h; exact .inl rfl
    · exact .inr (.inl ⟨hv, hk, h⟩)
    · exact .inr (.inr ⟨hv, hk, h⟩)
  · cases h; exact .inl rfl

/-- Everything a step that answers can do, after the event `e` (none: the list is empty) has been taken from the list. -/
inductive StepCase (e : Option Event) (s : State) : State → Prop
  /-- R140, R173, R205 to R208: a hold. -/
  | hold : StepCase e s s
  /-- R246. -/
  | tick (he : e = some .tick) : StepCase e s (schedulerTick s)
  /-- R261. -/
  | reset (i : Inputs) (he : e = some (.instant i)) (hi : i.rst = true) : StepCase e s (resetAssert s)
  /-- R262. -/
  | release (i : Inputs) (he : e = some (.instant i)) (hi : i.rst = false) (h : s.rst = true)
      (hc : configOk s.cfg = true) : StepCase e s { sampleStraps i s with rst := false }
  /-- R120. -/
  | receive (i : Inputs) (t : State) (he : e = some (.instant i)) (hi : i.rst = false) (hr : s.rst = false)
      (hp : s.phase = .rx) (hv : i.rxValid = true) (h : RxStep s i.rxData i.rxFerr t) : StepCase e s t
  /-- R160. -/
  | dispatch (bytes : List Byte) (i : Instr) (t : State) (hr : s.rst = false) (hp : s.phase = .dispatch)
      (hf : fetch s = .ok bytes) (hd : decode bytes = .ok i) (h : exec i s = .next t) : StepCase e s t
  /-- R168 to R170. -/
  | answer (i : Inputs) (t : State) (he : e = some (.instant i)) (hi : i.rst = false) (hr : s.rst = false)
      (hp : s.phase = .capWait) (h : capabilityAnswer i s = .ok t) : StepCase e s t
  /-- R205 to R208. -/
  | transmit (i : Inputs) (t : State) (he : e = some (.instant i)) (hi : i.rst = false) (hr : s.rst = false)
      (hp : s.phase = .tx) (h : transmit i s = .ok t) : StepCase e s t

/-- The state a step acts on: the first event is taken from the list. -/
def State.popped (s : State) : State := { s with inputs := s.inputs.tail }

/-- What a step can do. -/
theorem step_cases {s t : State} (h : step s = .next t) : StepCase s.inputs.head? s.popped t := by
  unfold step engine at h
  split at h
  · rename_i hi
    have hpop : s.popped = s := by simp [State.popped, hi]; rw [← hi]
    rw [hpop]
    unfold quietStep at h
    split at h
    · cases h; exact .hold
    · rename_i hr
      have hr : s.rst = false := by simpa using hr
      split at h
      · rename_i hp
        obtain ⟨bytes, i, hf, hd, he⟩ := dispatch_next h
        exact .dispatch bytes i t hr hp hf hd he
      all_goals (cases h; exact .hold)
  · rename_i rest hi
    have hpop : s.popped = { s with inputs := rest } := by simp [State.popped, hi]
    rw [hpop]
    cases h
    exact .tick (by simp [hi])
  · rename_i i rest hi
    have hpop : s.popped = { s with inputs := rest } := by simp [State.popped, hi]
    have he : s.inputs.head? = some (.instant i) := by simp [hi]
    rw [hpop]
    generalize ({ s with inputs := rest } : State) = u at h ⊢
    unfold instantStep at h
    split at h
    · rename_i hrst
      cases h; exact .reset i he hrst
    rename_i hrst
    have hrst : i.rst = false := by simpa using hrst
    split at h
    · rename_i hr
      unfold resetRelease at h
      split at h
      · rename_i hc
        cases h
        exact .release i he hrst hr hc
      · cases h
    · rename_i hr
      have hr : u.rst = false := by simpa using hr
      unfold engineStep at h
      split at h <;> rename_i hp
      · have h := toOutcome_next.1 h
        unfold receiveStep at h
        split at h
        · rename_i hv
          exact .receive i t he hrst hr hp hv (receive_cases h)
        · cases h; exact .hold
      · obtain ⟨bytes, j, hf, hd, he'⟩ := dispatch_next h
        exact .dispatch bytes j t hr hp hf hd he'
      · exact .answer i t he hrst hr hp (toOutcome_next.1 h)
      · exact .transmit i t he hrst hr hp (toOutcome_next.1 h)

end Sys2Proof.Machine
end

