-- ==== Sys2Proof/Laws/PerInstr.lean ====
section
/-! SUPPORT. Facts of each instruction as syntax: its command word decodes to it (spec/30_encoding.md R86, R87). -/

namespace Sys2Proof.Laws.DecodeEncodeWord

/-- R86: the command word of an instruction decodes to that instruction, with its content. -/
def Statement (i : Instr) : Prop := decode (encodeWord i) = .ok i

theorem p (content : List Byte) : Statement (.p content) :=
  show decode (0x50 :: content) = .ok (.p content) from rfl

theorem d (content : List Byte) : Statement (.d content) :=
  show decode (0x44 :: content) = .ok (.d content) from rfl

theorem r (content : List Byte) : Statement (.r content) :=
  show decode (0x52 :: content) = .ok (.r content) from rfl

theorem w (content : List Byte) : Statement (.w content) :=
  show decode (0x57 :: content) = .ok (.w content) from rfl

theorem nopA (content : List Byte) : Statement (.nopA content) :=
  show decode (0x41 :: content) = .ok (.nopA content) from rfl

theorem nopB (content : List Byte) : Statement (.nopB content) :=
  show decode (0x42 :: content) = .ok (.nopB content) from rfl

theorem nopC (content : List Byte) : Statement (.nopC content) :=
  show decode (0x43 :: content) = .ok (.nopC content) from rfl

theorem nopE (content : List Byte) : Statement (.nopE content) :=
  show decode (0x45 :: content) = .ok (.nopE content) from rfl

theorem nopF (content : List Byte) : Statement (.nopF content) :=
  show decode (0x46 :: content) = .ok (.nopF content) from rfl

theorem nopG (content : List Byte) : Statement (.nopG content) :=
  show decode (0x47 :: content) = .ok (.nopG content) from rfl

theorem nopH (content : List Byte) : Statement (.nopH content) :=
  show decode (0x48 :: content) = .ok (.nopH content) from rfl

theorem nopI (content : List Byte) : Statement (.nopI content) :=
  show decode (0x49 :: content) = .ok (.nopI content) from rfl

theorem nopJ (content : List Byte) : Statement (.nopJ content) :=
  show decode (0x4A :: content) = .ok (.nopJ content) from rfl

theorem nopK (content : List Byte) : Statement (.nopK content) :=
  show decode (0x4B :: content) = .ok (.nopK content) from rfl

theorem nopL (content : List Byte) : Statement (.nopL content) :=
  show decode (0x4C :: content) = .ok (.nopL content) from rfl

theorem nopM (content : List Byte) : Statement (.nopM content) :=
  show decode (0x4D :: content) = .ok (.nopM content) from rfl

theorem nopN (content : List Byte) : Statement (.nopN content) :=
  show decode (0x4E :: content) = .ok (.nopN content) from rfl

theorem nopO (content : List Byte) : Statement (.nopO content) :=
  show decode (0x4F :: content) = .ok (.nopO content) from rfl

theorem nopQ (content : List Byte) : Statement (.nopQ content) :=
  show decode (0x51 :: content) = .ok (.nopQ content) from rfl

theorem nopS (content : List Byte) : Statement (.nopS content) :=
  show decode (0x53 :: content) = .ok (.nopS content) from rfl

theorem nopT (content : List Byte) : Statement (.nopT content) :=
  show decode (0x54 :: content) = .ok (.nopT content) from rfl

theorem nopU (content : List Byte) : Statement (.nopU content) :=
  show decode (0x55 :: content) = .ok (.nopU content) from rfl

theorem nopV (content : List Byte) : Statement (.nopV content) :=
  show decode (0x56 :: content) = .ok (.nopV content) from rfl

theorem nopX (content : List Byte) : Statement (.nopX content) :=
  show decode (0x58 :: content) = .ok (.nopX content) from rfl

theorem nopY (content : List Byte) : Statement (.nopY content) :=
  show decode (0x59 :: content) = .ok (.nopY content) from rfl

theorem nopZ (content : List Byte) : Statement (.nopZ content) :=
  show decode (0x5A :: content) = .ok (.nopZ content) from rfl

end Sys2Proof.Laws.DecodeEncodeWord
end

