-- ==== Sys2Proof/Tests/Slice0.lean ====
section
/-! SUPPORT. Tests on fixed values, whose expected results come from the spec's tables and test vectors, and the witnesses:
for each statement with hypotheses, concrete values that meet them. -/

namespace Sys2Proof.Tests
open Sys2Proof.Machine Sys2Proof.Safety

/-- Whether an outcome is a next state with a property. -/
def nextIs (o : Host.Outcome State Fault Refusal) (p : State → Bool) : Bool :=
  match o with
  | .next t => p t
  | .fault _ => false
  | .refused _ => false

/-- The state after these events, run from `s`. -/
def after (s : State) (events : List Event) : State :=
  match runEvents s events with
  | .next t => t
  | .fault _ => s
  | .refused _ => s

/-- The state in which this command word has been accepted. -/
def accepted (bytes : List Byte) : State := placeCommand State.reset bytes

/-! ## Well-formedness: each check refuses a term -/

theorem test_wf_soh : noSohInContent (.p [0x01]) = false ∧ wellFormed testConfig (.p [0x01]) = false := by decide
theorem test_wf_etx : noEtxInContent (.d [0x03]) = false ∧ wellFormed testConfig (.d [0x03]) = false := by decide
theorem test_wf_content_buffer :
    let i : Instr := .w (List.replicate 33 0x30)
    fitsContentBuffer testConfig i = false ∧ fitsRawBuffer testConfig i = true ∧ wellFormed testConfig i = false := by
  decide +kernel
theorem test_wf_raw_buffer :
    let cfg := { testConfig with contentCap := 58 }
    let i : Instr := .w (List.replicate 58 0x30)
    fitsRawBuffer cfg i = false ∧ fitsContentBuffer cfg i = true ∧ wellFormed cfg i = false := by
  decide +kernel
theorem test_wf_admits_stx : wellFormed testConfig (.w [0x30, 0x3A, 0x31, 0x3A, 0x02]) = true := by decide

/-! ## Decoding: one word for each row of spec/opcode_table.json (R86), and none for the bytes beside the letters -/

theorem test_decode_P : decode [0b01010000] = .ok (.p []) := rfl
theorem test_decode_D : decode [0b01000100] = .ok (.d []) := rfl
theorem test_decode_R : decode [0b01010010] = .ok (.r []) := rfl
theorem test_decode_W : decode [0b01010111] = .ok (.w []) := rfl
theorem test_decode_NOP_A : decode [0b01000001] = .ok (.nopA []) := rfl
theorem test_decode_NOP_B : decode [0b01000010] = .ok (.nopB []) := rfl
theorem test_decode_NOP_C : decode [0b01000011] = .ok (.nopC []) := rfl
theorem test_decode_NOP_E : decode [0b01000101] = .ok (.nopE []) := rfl
theorem test_decode_NOP_F : decode [0b01000110] = .ok (.nopF []) := rfl
theorem test_decode_NOP_G : decode [0b01000111] = .ok (.nopG []) := rfl
theorem test_decode_NOP_H : decode [0b01001000] = .ok (.nopH []) := rfl
theorem test_decode_NOP_I : decode [0b01001001] = .ok (.nopI []) := rfl
theorem test_decode_NOP_J : decode [0b01001010] = .ok (.nopJ []) := rfl
theorem test_decode_NOP_K : decode [0b01001011] = .ok (.nopK []) := rfl
theorem test_decode_NOP_L : decode [0b01001100] = .ok (.nopL []) := rfl
theorem test_decode_NOP_M : decode [0b01001101] = .ok (.nopM []) := rfl
theorem test_decode_NOP_N : decode [0b01001110] = .ok (.nopN []) := rfl
theorem test_decode_NOP_O : decode [0b01001111] = .ok (.nopO []) := rfl
theorem test_decode_NOP_Q : decode [0b01010001] = .ok (.nopQ []) := rfl
theorem test_decode_NOP_S : decode [0b01010011] = .ok (.nopS []) := rfl
theorem test_decode_NOP_T : decode [0b01010100] = .ok (.nopT []) := rfl
theorem test_decode_NOP_U : decode [0b01010101] = .ok (.nopU []) := rfl
theorem test_decode_NOP_V : decode [0b01010110] = .ok (.nopV []) := rfl
theorem test_decode_NOP_X : decode [0b01011000] = .ok (.nopX []) := rfl
theorem test_decode_NOP_Y : decode [0b01011001] = .ok (.nopY []) := rfl
theorem test_decode_NOP_Z : decode [0b01011010] = .ok (.nopZ []) := rfl
theorem test_decode_rejects : decode [0x40] = .error (.notACommandLetter 0x40) ∧ decode [0x5B] = .error (.notACommandLetter 0x5B)
    ∧ decode [0x64] = .error (.notACommandLetter 0x64) ∧ decode [] = .error .noCommandByte := ⟨rfl, rfl, rfl, rfl⟩
theorem test_table_rows_apart :
    (opTable.map fun row => row.pattern).Pairwise (· ≠ ·) ∧ opTable.length = 26
      ∧ opTable.all (fun row => row.mask == 0xFF) = true := by decide +kernel
theorem test_decodeTableWord : decodeTableWord 8 0x57 = some (.w []) ∧ decodeTableWord 8 0x5B = none := ⟨rfl, rfl⟩
theorem test_withFetchWord : fetch (State.reset.withFetchWord 8 0x58) = .ok [0x58] := rfl

/-! ## Frames, characters and payloads -/

/-- V3: the request and the response of the describe scenario (S1). -/
def requestV3 : List Byte := [0x01, 0x30, 0x37, 0x3A, 0x44, 0x02, 0x30, 0x03, 0x42, 0x43, 0x43, 0x43]
theorem test_request_V3 : requestFrame crc16Arc 7 0x44 [0x30] = requestV3 := by decide +kernel
theorem test_address_characters : addrCh0 31 = 0x31 ∧ addrCh1 31 = 0x46 ∧ addrCh0 10 = 0x30 ∧ addrCh1 10 = 0x41 := by decide
theorem test_dec : dec 0 = [0x30] ∧ dec 9 = [0x39] ∧ dec 10 = [0x31, 0x30] ∧ dec 65535 = [0x36, 0x35, 0x35, 0x33, 0x35] := by
  decide +kernel
theorem test_parse : parseNum 65535 [0x30, 0x30, 0x30, 0x33] = some 3 ∧ parseNum 65535 [0x36, 0x35, 0x35, 0x33, 0x36] = none
    ∧ parseNum 65535 [] = none ∧ parseNum 65535 [0x2B, 0x31] = none := by decide
/-- 95_test_vectors.md section 1: the names of the test configuration. -/
theorem test_registry_names :
    testRegistry.map (fun d => d.name)
        = ["RELAY_VALUE", "PWM_VALUE", "LEVEL_SENSOR", "FREQ_SENSOR"].map (fun n => n.toList.map (fun c => BitVec.ofNat 8 c.toNat))
      ∧ testConfig.moduleName = "RELAY".toList.map (fun c => BitVec.ofNat 8 c.toNat) := by
  decide +kernel
theorem test_config_ok : configOk testConfig = true := by decide +kernel

/-! ## One step of each command, against the vectors of 95_test_vectors.md -/

/-- The frame a response has built. -/
def built (t : State) : List Byte := bytesBelow t.txbuf t.txLen

theorem test_V2_P : nextIs (step (accepted [0x50, 0x6A, 0x75, 0x6E, 0x6B])) (fun t => decide (built t =
    [0x01, 0x46, 0x46, 0x3A, 0x50, 0x02, 0x52, 0x45, 0x4C, 0x41, 0x59, 0x3A, 0x34, 0x3A, 0x30, 0x03, 0x32, 0x46, 0x38, 0x35])) = true := by
  decide +kernel
theorem test_V4_D : nextIs (step (accepted [0x44, 0x31])) (fun t => decide (built t =
    [0x01, 0x46, 0x46, 0x3A, 0x44, 0x02, 0x50, 0x57, 0x4D, 0x5F, 0x56, 0x41, 0x4C, 0x55, 0x45, 0x3A, 0x32, 0x3A, 0x49, 0x3A, 0x57, 0x3A, 0x30, 0x3A, 0x32, 0x35, 0x35, 0x03, 0x30, 0x35, 0x42, 0x41])) = true := by
  decide +kernel
theorem test_V9_D : nextIs (step (accepted [0x44, 0x36, 0x35, 0x35, 0x33, 0x36])) (fun t => decide (built t =
    [0x01, 0x46, 0x46, 0x3A, 0x44, 0x02, 0x15, 0x50, 0x41, 0x52, 0x41, 0x4D, 0x45, 0x54, 0x45, 0x52, 0x5F, 0x45, 0x52, 0x52, 0x4F, 0x52, 0x03, 0x32, 0x32, 0x46, 0x37])) = true := by
  decide +kernel
theorem test_V19_R : nextIs (step (accepted [0x52, 0x30, 0x3A, 0x38])) (fun t => decide (built t =
    [0x01, 0x46, 0x46, 0x3A, 0x52, 0x02, 0x15, 0x49, 0x4E, 0x56, 0x41, 0x4C, 0x49, 0x44, 0x5F, 0x50, 0x4F, 0x52, 0x54, 0x03, 0x36, 0x43, 0x41, 0x41])) = true := by
  decide +kernel
theorem test_V33_W : nextIs (step (accepted [0x57, 0x32, 0x3A, 0x39, 0x39, 0x3A, 0x31])) (fun t => decide (built t =
    [0x01, 0x46, 0x46, 0x3A, 0x57, 0x02, 0x15, 0x43, 0x48, 0x41, 0x4E, 0x4E, 0x45, 0x4C, 0x5F, 0x52, 0x45, 0x41, 0x44, 0x5F, 0x4F, 0x4E, 0x4C, 0x59, 0x03, 0x30, 0x33, 0x31, 0x39])) = true := by
  decide +kernel
/-- V15. -/
theorem test_V15_R : nextIs (step (accepted [0x52, 0x30, 0x3A, 0x37])) (fun t =>
    decide (t.capRequest = some (.capRead 0 7) ∧ t.phase = .capWait)) = true := by
  decide +kernel
/-- V30. -/
theorem test_V30_W : nextIs (step (accepted [0x57, 0x30, 0x3A, 0x31, 0x3A, 0x61, 0x3A, 0x62])) (fun t =>
    decide (t.capRequest = some (.capWrite 0 1 [0x61, 0x3A, 0x62]) ∧ t.phase = .capWait)) = true := by
  decide +kernel
theorem test_step_NOP_A : nextIs (step (accepted [0x41, 0x39])) (fun t => decide (t.phase = .rx ∧ t.txLen = 0)) = true := by decide +kernel
theorem test_step_NOP_B : nextIs (step (accepted [0x42, 0x39])) (fun t => decide (t.phase = .rx ∧ t.txLen = 0)) = true := by decide +kernel
theorem test_step_NOP_C : nextIs (step (accepted [0x43, 0x39])) (fun t => decide (t.phase = .rx ∧ t.txLen = 0)) = true := by decide +kernel
theorem test_step_NOP_E : nextIs (step (accepted [0x45, 0x39])) (fun t => decide (t.phase = .rx ∧ t.txLen = 0)) = true := by decide +kernel
theorem test_step_NOP_F : nextIs (step (accepted [0x46, 0x39])) (fun t => decide (t.phase = .rx ∧ t.txLen = 0)) = true := by decide +kernel
theorem test_step_NOP_G : nextIs (step (accepted [0x47, 0x39])) (fun t => decide (t.phase = .rx ∧ t.txLen = 0)) = true := by decide +kernel
theorem test_step_NOP_H : nextIs (step (accepted [0x48, 0x39])) (fun t => decide (t.phase = .rx ∧ t.txLen = 0)) = true := by decide +kernel
theorem test_step_NOP_I : nextIs (step (accepted [0x49, 0x39])) (fun t => decide (t.phase = .rx ∧ t.txLen = 0)) = true := by decide +kernel
theorem test_step_NOP_J : nextIs (step (accepted [0x4A, 0x39])) (fun t => decide (t.phase = .rx ∧ t.txLen = 0)) = true := by decide +kernel
theorem test_step_NOP_K : nextIs (step (accepted [0x4B, 0x39])) (fun t => decide (t.phase = .rx ∧ t.txLen = 0)) = true := by decide +kernel
theorem test_step_NOP_L : nextIs (step (accepted [0x4C, 0x39])) (fun t => decide (t.phase = .rx ∧ t.txLen = 0)) = true := by decide +kernel
theorem test_step_NOP_M : nextIs (step (accepted [0x4D, 0x39])) (fun t => decide (t.phase = .rx ∧ t.txLen = 0)) = true := by decide +kernel
theorem test_step_NOP_N : nextIs (step (accepted [0x4E, 0x39])) (fun t => decide (t.phase = .rx ∧ t.txLen = 0)) = true := by decide +kernel
theorem test_step_NOP_O : nextIs (step (accepted [0x4F, 0x39])) (fun t => decide (t.phase = .rx ∧ t.txLen = 0)) = true := by decide +kernel
theorem test_step_NOP_Q : nextIs (step (accepted [0x51, 0x39])) (fun t => decide (t.phase = .rx ∧ t.txLen = 0)) = true := by decide +kernel
theorem test_step_NOP_S : nextIs (step (accepted [0x53, 0x39])) (fun t => decide (t.phase = .rx ∧ t.txLen = 0)) = true := by decide +kernel
theorem test_step_NOP_T : nextIs (step (accepted [0x54, 0x39])) (fun t => decide (t.phase = .rx ∧ t.txLen = 0)) = true := by decide +kernel
theorem test_step_NOP_U : nextIs (step (accepted [0x55, 0x39])) (fun t => decide (t.phase = .rx ∧ t.txLen = 0)) = true := by decide +kernel
theorem test_step_NOP_V : nextIs (step (accepted [0x56, 0x39])) (fun t => decide (t.phase = .rx ∧ t.txLen = 0)) = true := by decide +kernel
theorem test_step_NOP_X : nextIs (step (accepted [0x58, 0x39])) (fun t => decide (t.phase = .rx ∧ t.txLen = 0)) = true := by decide +kernel
theorem test_step_NOP_Y : nextIs (step (accepted [0x59, 0x39])) (fun t => decide (t.phase = .rx ∧ t.txLen = 0)) = true := by decide +kernel
theorem test_step_NOP_Z : nextIs (step (accepted [0x5A, 0x39])) (fun t => decide (t.phase = .rx ∧ t.txLen = 0)) = true := by decide +kernel

/-! ## The receiver and the environment -/

/-- RX4: two SOH bytes under `ToIdle`. -/
theorem test_RX4 : nextIs (runEvents { State.reset with cfg := { testConfig with sohAtAddr0 := .toIdle } }
    ([0x01, 0x01].map goodByte)) (fun t => decide (t.rxState = .idle ∧ t.rawLen = 0)) = true := by decide +kernel
/-- RX22. -/
theorem test_RX22 : nextIs (runEvents State.reset ((requestV3.take 8).map goodByte))
    (fun t => decide (t.rxState = .ck0 ∧ t.rawLen = 8 ∧ t.expCrc = 0xBCCC)) = true := by decide +kernel
/-- RX28. -/
theorem test_RX28 : nextIs (runEvents State.reset (requestV3.map goodByte)) (fun t =>
    decide (t.phase = .dispatch ∧ t.dcmd = 0x44 ∧ t.dlen = 1 ∧ bytesBelow t.content 1 = [0x30] ∧ t.rxState = .idle)) = true := by
  decide +kernel
/-- RX9: straps 00000b give address 31. -/
theorem test_RX9 : nextIs (runEvents State.reset
    (.instant { rst := true } :: .instant { addrStrapN := 0 } ::
      [0x01, 0x31, 0x46, 0x3A, 0x50, 0x02, 0x03, 0x38, 0x36, 0x44, 0x30].map goodByte)) (fun t =>
    decide (t.phase = .dispatch ∧ t.dcmd = 0x50 ∧ t.devAddr = 31)) = true := by
  decide +kernel

/-! ## Witnesses: for each statement with hypotheses, values that meet them -/

/-- The state after reset, in a receive state, with the session lengths and the byte that comes next. -/
def receiving (r : RxState) (rawLen contentLen : Nat) (b : Byte) : State :=
  { State.reset with rxState := r, rawLen := rawLen, contentLen := contentLen, inputs := [goodByte b] }

theorem receives_receiving (r : RxState) (rawLen contentLen : Nat) (b : Byte) :
    Receives (receiving r rawLen contentLen b) b [] :=
  ⟨rfl, _, ⟨rfl, rfl, rfl⟩, rfl, rfl, rfl⟩

theorem facing_receives {s : State} {b : Byte} (hp : s.phase = .rx) (hr : s.rst = false) :
    Receives (facing s [goodByte b]) b [] :=
  ⟨hp, _, ⟨rfl, rfl, hr⟩, rfl, rfl, rfl⟩

theorem facing_meets {s : State} {i : Inputs} (hi : i.rst = false) (hr : s.rst = false) :
    Meets (facing s [.instant i]) i [] :=
  ⟨rfl, hi, hr⟩

/-- A reachable state in `CK3`, with the last digit of V3 to come. -/
def lastDigit : State := facing (after State.reset ((requestV3.take 11).map goodByte)) [goodByte 0x43]

/-- The state in which V3 has been accepted. -/
def describing : State := after State.reset (requestV3.map goodByte)

/-- The state in which the response of V3 begins, with this event to come. -/
def responding (i : Inputs) : State := facing (after describing [.instant {}]) [.instant i]

/-- The state in which the read of V15 waits for its answer, with this answer to come. -/
def reading (i : Inputs) : State :=
  facing (after State.reset ((requestFrame crc16Arc 7 0x52 [0x30, 0x3A, 0x37]).map goodByte ++ [.instant {}])) [.instant i]

/-- The state in which the write of V25 waits for its answer, with this answer to come. -/
def writing (i : Inputs) : State :=
  facing (after State.reset ((requestFrame crc16Arc 7 0x57 [0x30, 0x3A, 0x31, 0x3A, 0x31]).map goodByte ++ [.instant {}]))
    [.instant i]

/-- The response of V3 in `SEND`, with this many of its 33 bytes sent. -/
def sending (sent : Nat) (i : Inputs) : State :=
  facing (after (responding {}) (.instant { preDone := true } :: List.replicate sent takeByte)) [.instant i]

/-- A state in a phase and a transmit state, with this instant to come. -/
def standing (p : Phase) (x : TxState) (i : Inputs) : State :=
  { State.reset with phase := p, txState := x, inputs := [.instant i] }

/-- The state after reset with `rst` held, with this instant to come. -/
def held (i : Inputs) : State := { State.reset with rst := true, inputs := [.instant i] }

theorem witness_CrcDetectsAnyOneByteChange :
    crc16Arc.poly.getLsbD 0 = true ∧ crc16Modbus.poly.getLsbD 0 = true ∧ crc16Xmodem.poly.getLsbD 0 = true
      ∧ crc16CcittFalse.poly.getLsbD 0 = true ∧ crc16Kermit.poly.getLsbD 0 = true ∧ (0x30 : Byte) ≠ 0xB0 := by
  decide
theorem witness_DecimalRenderingIsShortest :
    IsDecimal [0x30, 0x37] ∧ decimalValue [0x30, 0x37] = 7 ∧ (10 : Nat) ≠ 0 := ⟨⟨by decide, by decide⟩, by decide, by decide⟩
theorem witness_DecimalFieldParsesExactlyWhenStrict :
    parseNum 65535 [0x36, 0x35, 0x35, 0x33, 0x35] = some 65535
      ∧ IsDecimal [0x36, 0x35, 0x35, 0x33, 0x35] ∧ decimalValue [0x36, 0x35, 0x35, 0x33, 0x35] = 65535 :=
  ⟨by decide, ⟨by decide, by decide⟩, by decide⟩
theorem witness_OperandFormsFollowTheGrammar :
    operandD testConfig [0x33] = some 3 ∧ operandR testConfig [0x30, 0x3A, 0x37] = some (0, 7)
      ∧ operandW testConfig [0x30, 0x3A, 0x31, 0x3A, 0x61, 0x3A, 0x62] = some (0, 1, [0x61, 0x3A, 0x62])
      ∧ operandR testConfig [0x30, 0x3A, 0x31, 0x3A, 0x32] = none ∧ operandW testConfig [0x30, 0x3A, 0x31] = none := by
  decide +kernel
theorem witness_ErrorPayloadsAreNakAndTheName :
    (ErrorName.invalidPort, "INVALID_PORT") ∈ [(ErrorName.invalidPort, "INVALID_PORT")] := by decide
theorem witness_ExactlyTheLettersDecode :
    (∀ b ∈ [(0x41 : Byte), 0x5A], 0x41 ≤ b.toNat ∧ b.toNat ≤ 0x5A)
      ∧ (∀ b ∈ [(0x40 : Byte), 0x5B], ¬ (0x41 ≤ b.toNat ∧ b.toNat ≤ 0x5A)) := by decide
theorem witness_FrameDecodesToTheInstructionEncoded : wellFormed testConfig (.w (List.replicate 32 0x30)) = true := by
  decide +kernel
theorem witness_OnlyRequestFramesDecode : (match decodeFrame testConfig 7 requestV3 with
    | .ok i => decide (i = .d [0x30])
    | .error _ => false) = true := by
  decide +kernel
theorem witness_FramingErrorByteIsDiscarded :
    let i : Inputs := { rxValid := true, rxData := 0x01, rxFerr := true }
    let s := standing .rx .idle i
    s.phase = .rx ∧ Meets s i [] ∧ i.rxValid = true ∧ i.rxFerr = true := ⟨rfl, ⟨rfl, rfl, rfl⟩, rfl, rfl⟩
theorem witness_SohRestartsTheSession :
    let s := receiving .ck3 8 1 0x01
    Receives s 0x01 [] ∧ 0 < s.cfg.rawCap ∧ ¬ (s.rxState = .addr0 ∧ s.cfg.sohAtAddr0 = .toIdle) :=
  ⟨receives_receiving .., by decide, by decide⟩
theorem witness_SohInAddr0UnderToIdleAborts :
    let s := { receiving .addr0 1 0 0x01 with cfg := { testConfig with sohAtAddr0 := .toIdle } }
    Receives s 0x01 [] ∧ s.rxState = .addr0 ∧ s.cfg.sohAtAddr0 = .toIdle :=
  ⟨⟨rfl, _, ⟨rfl, rfl, rfl⟩, rfl, rfl, rfl⟩, rfl, rfl⟩
theorem witness_IdleDiscardsOtherBytes :
    let s := receiving .idle 0 0 0x55
    Receives s 0x55 [] ∧ (0x55 : Byte) ≠ 0x01 ∧ s.rxState = .idle := ⟨receives_receiving .., by decide, rfl⟩
/-- Each of the four states, with the expected byte; `test_RX28` takes them in a run. -/
theorem witness_HeaderBytesAdvanceOrAbort :
    ∀ p ∈ [(RxState.addr0, (0x30 : Byte), RxState.addr1, 1), (RxState.addr1, 0x37, RxState.sep, 2),
        (RxState.sep, 0x3A, RxState.cmd, 3), (RxState.cstart, 0x02, RxState.content, 5)],
      let s := receiving p.1 p.2.2.2 0 p.2.1
      Receives s p.2.1 [] ∧ p.2.1 ≠ 0x01 ∧ s.rawLen < s.cfg.rawCap
        ∧ (s.rxState, p.2.1, p.2.2.1) ∈
          [(RxState.addr0, hex1 ((s.devAddr.setWidth 8 : Byte).extractLsb' 4 4), RxState.addr1),
           (RxState.addr1, hex1 ((s.devAddr.setWidth 8 : Byte).extractLsb' 0 4), RxState.sep),
           (RxState.sep, 0x3A, RxState.cmd), (RxState.cstart, 0x02, RxState.content)] := by
  intro p hp
  refine ⟨receives_receiving .., ?_⟩
  revert hp p
  decide +kernel
theorem witness_CommandByteIsRecordedOrAborts :
    ∀ b ∈ [(0x40 : Byte), 0x41, 0x5A, 0x5B],
      let s := receiving .cmd 4 0 b
      Receives s b [] ∧ b ≠ 0x01 ∧ s.rxState = .cmd ∧ s.rawLen < s.cfg.rawCap := by
  intro b hb
  refine ⟨receives_receiving .., ?_⟩
  revert hb b
  decide
theorem witness_FullRawBufferAborts :
    let s := receiving .content 64 32 0x03
    Receives s 0x03 [] ∧ (0x03 : Byte) ≠ 0x01 ∧ s.rxState = .content ∧ s.rawLen = s.cfg.rawCap :=
  ⟨receives_receiving .., by decide, rfl, rfl⟩
theorem witness_EtxEndsContentAndComputesChecksum :
    let s := facing (after State.reset ((requestV3.take 7).map goodByte)) [goodByte 0x03]
    Receives s 0x03 [] ∧ s.rxState = .content ∧ s.rawLen < s.cfg.rawCap
      ∧ (bytesBelow s.raw s.rawLen).length = s.rawLen :=
  ⟨facing_receives (by decide +kernel) (by decide +kernel), by decide +kernel⟩
/-- With room for one byte, and with none. -/
theorem witness_ContentByteIsKeptOrTruncated :
    ∀ n ∈ [31, 32],
      let s := receiving .content (6 + n) n 0x30
      Receives s 0x30 [] ∧ (0x30 : Byte) ≠ 0x01 ∧ (0x30 : Byte) ≠ 0x03 ∧ s.rxState = .content ∧ s.rawLen < s.cfg.rawCap
        ∧ (s.contentLen < s.cfg.contentCap ↔ n = 31) := by
  intro n hn
  refine ⟨receives_receiving .., ?_⟩
  revert hn n
  decide
theorem witness_ChecksumDigitsAdvanceOrAbort :
    ∀ p ∈ [(RxState.ck0, 12, RxState.ck1, (0x42 : Byte)), (RxState.ck1, 8, RxState.ck2, 0x43), (RxState.ck2, 4, RxState.ck3, 0x43)],
      let s := { receiving p.1 8 1 p.2.2.2 with expCrc := 0xBCCC }
      Receives s p.2.2.2 [] ∧ p.2.2.2 ≠ 0x01 ∧ p.2.2.2 = hex1 (s.expCrc.extractLsb' p.2.1 4)
        ∧ (s.rxState, p.2.1, p.2.2.1) ∈
          [(RxState.ck0, 12, RxState.ck1), (RxState.ck1, 8, RxState.ck2), (RxState.ck2, 4, RxState.ck3)] := by
  intro p hp
  refine ⟨⟨rfl, _, ⟨rfl, rfl, rfl⟩, rfl, rfl, rfl⟩, ?_⟩
  revert hp p
  decide +kernel
theorem witness_LastDigitAcceptsTheFrame :
    Receives lastDigit 0x43 [] ∧ (0x43 : Byte) ≠ 0x01 ∧ lastDigit.rxState = .ck3
      ∧ 0x43 = hex1 (lastDigit.expCrc.extractLsb' 0 4) :=
  ⟨facing_receives (by decide +kernel) (by decide +kernel), by decide +kernel⟩
/-- The longest content, arriving in the middle of another session, under `Restart`; and under `ToIdle`. -/
theorem witness_RequestFrameIsAccepted :
    ∀ b ∈ [SohAtAddr0.restart, SohAtAddr0.toIdle],
      let s := { receiving .content 20 14 0 with cfg := { testConfig with sohAtAddr0 := b } }
      s.rst = false ∧ s.phase = .rx ∧ (s.cfg.sohAtAddr0 = .restart ∨ s.rxState ≠ .addr0) ∧ isLetter 0x57 = true
        ∧ carriable (List.replicate 57 0x42) = true ∧ 7 + (List.replicate 57 (0x42 : Byte)).length ≤ s.cfg.rawCap := by
  decide +kernel
/-- One byte too long; and the smallest raw buffer. -/
theorem witness_OverlongFrameIsAborted :
    ∀ p ∈ [(64, 58), (7, 1)],
      let s := { State.reset with cfg := { testConfig with rawCap := p.1 } }
      s.rst = false ∧ s.phase = .rx ∧ (s.cfg.sohAtAddr0 = .restart ∨ s.rxState ≠ .addr0) ∧ isLetter 0x57 = true
        ∧ carriable (List.replicate p.2 0x42) = true ∧ 7 ≤ s.cfg.rawCap
        ∧ s.cfg.rawCap < 7 + (List.replicate p.2 (0x42 : Byte)).length := by
  decide +kernel
/-- Broadcast, and a wrong second character. -/
theorem witness_FrameToAnotherAddressIsIgnored :
    let s := State.reset
    (s.rst = false ∧ s.phase = .rx ∧ 7 ≤ s.cfg.rawCap ∧ (s.cfg.sohAtAddr0 = .restart ∨ s.rxState ≠ .addr0)
        ∧ (0x44 : Byte) ≠ 0x01 ∧ carriable [0x30] = true ∧ (0x01 : Byte) ∉ [(0x34 : Byte), 0x33, 0x43, 0x43])
      ∧ (¬ (0x46 = addrCh0 s.devAddr ∧ 0x46 = addrCh1 s.devAddr) ∧ (0x46 : Byte) ≠ 0x01)
      ∧ (¬ (0x30 = addrCh0 s.devAddr ∧ 0x38 = addrCh1 s.devAddr) ∧ (0x30 : Byte) ≠ 0x01 ∧ (0x38 : Byte) ≠ 0x01) := by
  decide +kernel
theorem witness_OnlyWholeFramesAreAccepted :
    invariant lastDigit = true ∧ lastDigit.phase = .rx
      ∧ nextIs (step lastDigit) (fun t => decide (t.phase = .dispatch)) = true := by
  decide +kernel
/-- U7: two firings between the acceptance and the dispatch step, the first of which changes the uptime; the snapshot may
return 0 or 1. -/
theorem test_uptimes_held :
    nextIs (runEvents { accepted [0x50] with tickCounter := 49 } [.tick, .tick]) (fun t =>
      decide (t.uptimesHeld = [0, 1] ∧ t.phase = .dispatch ∧ t.tickCounter = 1)) = true := by
  decide +kernel
/-- With the uptime unchanged since the acceptance, and with a change. -/
theorem witness_PingAnswersWithTheUptime :
    ∀ s ∈ [accepted [0x50], { accepted [0x50] with earlierUptimes := [0], uptimeSeconds := 1 }],
      s.phase = .dispatch ∧ configOk s.cfg = true := by
  decide +kernel
/-- No number, the last channel, and one past it. -/
theorem witness_DescribeAnswersInOrder :
    let s := accepted [0x44]
    s.phase = .dispatch ∧ configOk s.cfg = true ∧ parseNum s.cfg.numMax [] = none
      ∧ parseNum s.cfg.numMax [0x33] = some 3 ∧ s.cfg.registry[3]?.isSome = true
      ∧ parseNum s.cfg.numMax [0x34] = some 4 ∧ s.cfg.registry[4]? = none := by
  decide +kernel
/-- The last port of channel 0, no number, the first channel that does not exist, the first port that does not exist. -/
theorem witness_ReadChecksInOrder :
    let s := accepted [0x52]
    s.phase = .dispatch ∧ configOk s.cfg = true ∧ operandR s.cfg [0x30, 0x3A, 0x37] = some (0, 7)
      ∧ (s.cfg.registry[0]?.any fun d => decide (7 < d.portCount)) = true ∧ operandR s.cfg [0x30] = none
      ∧ operandR s.cfg [0x34, 0x3A, 0x30] = some (4, 0) ∧ s.cfg.registry.length ≤ 4
      ∧ operandR s.cfg [0x30, 0x3A, 0x38] = some (0, 8)
      ∧ (s.cfg.registry[0]?.any fun d => decide (d.portCount ≤ 8)) = true := by
  decide +kernel
theorem witness_WriteChecksInOrder :
    let s := accepted [0x57]
    s.phase = .dispatch ∧ configOk s.cfg = true ∧ operandW s.cfg [0x30, 0x3A, 0x37, 0x3A, 0x31] = some (0, 7, [0x31])
      ∧ (s.cfg.registry[0]?.any fun d => decide (d.access = .readWrite ∧ 7 < d.portCount)) = true
      ∧ operandW s.cfg [0x30, 0x3A, 0x31] = none
      ∧ operandW s.cfg [0x34, 0x3A, 0x30, 0x3A] = some (4, 0, []) ∧ s.cfg.registry.length ≤ 4
      ∧ operandW s.cfg [0x32, 0x3A, 0x39, 0x3A] = some (2, 9, [])
      ∧ (s.cfg.registry[2]?.any fun d => decide (d.access = .readOnly)) = true
      ∧ operandW s.cfg [0x30, 0x3A, 0x38, 0x3A] = some (0, 8, [])
      ∧ (s.cfg.registry[0]?.any fun d => decide (d.access = .readWrite ∧ d.portCount ≤ 8)) = true := by
  decide +kernel
theorem witness_OtherLettersOnlyReturnToReceiving : Instr.nopX [0x30] ∈ [Instr.nopA [0x30], Instr.nopX [0x30]] := by decide
/-- A command that answers, one that reads, and one that writes. -/
theorem witness_AtMostOneRequestPerCommand :
    nextIs (exec (.p []) (accepted [0x50])) (fun t => decide (t.phase = .tx)) = true
      ∧ nextIs (exec (.r [0x30, 0x3A, 0x37]) (accepted [0x52])) (fun t => decide (t.capKind = .read)) = true
      ∧ nextIs (exec (.w [0x30, 0x3A, 0x37, 0x3A]) (accepted [0x57])) (fun t => decide (t.capKind = .write)) = true := by
  decide +kernel
/-- The longest content, with `ok = 0`. -/
theorem witness_ReadAnswerIsSentAsItStands :
    let i : Inputs := { capRspValid := true, capRspContent := List.replicate 64 0x31 }
    let s := reading i
    Meets s i [] ∧ s.phase = .capWait ∧ s.capKind = .read ∧ i.capRspValid = true
      ∧ i.capRspContent.length ≤ s.cfg.respContentCap :=
  ⟨facing_meets rfl (by decide +kernel), by decide +kernel⟩
theorem witness_WriteAnswerIsAcknowledged :
    let i : Inputs := { capRspValid := true }
    let s := writing i
    Meets s i [] ∧ s.phase = .capWait ∧ s.capKind = .write ∧ i.capRspValid = true ∧ 1 ≤ s.cfg.respContentCap :=
  ⟨facing_meets rfl (by decide +kernel), by decide +kernel⟩
theorem witness_OverlongReadAnswerFaults :
    let i : Inputs := { capRspValid := true, capRspContent := List.replicate 65 0x31 }
    let s := reading i
    Meets s i [] ∧ s.phase = .capWait ∧ s.capKind = .read ∧ i.capRspValid = true
      ∧ s.cfg.respContentCap < i.capRspContent.length :=
  ⟨facing_meets rfl (by decide +kernel), by decide +kernel⟩
/-- U5: the fault of a provider that breaks its bound. -/
theorem test_overlong_answer_faults :
    (match step (reading { capRspValid := true, capRspContent := List.replicate 65 0x31 }) with
      | .fault f => decide (f = .responseTooLong 65)
      | _ => false) = true := by
  decide +kernel
theorem witness_PreSettleStartsTheStream :
    let i : Inputs := { preDone := true }
    let s := standing .tx .pre i
    s.phase = .tx ∧ s.txState = .pre ∧ Meets s i [] ∧ i.preDone = true := ⟨rfl, rfl, ⟨rfl, rfl, rfl⟩, rfl⟩
/-- The last byte of the response. -/
theorem witness_TransmitEventSendsTheNextByte :
    let i : Inputs := { txReady := true }
    let s := sending 31 i
    Meets s i [] ∧ s.phase = .tx ∧ s.txState = .send ∧ i.txReady = true ∧ Memory.read s.txbuf s.txIdx = some 0x46
      ∧ s.txIdx < s.txLen ∧ s.txLen ≤ 11 + s.cfg.respContentCap ∧ s.txIdx + 1 = s.txLen :=
  ⟨facing_meets rfl (by decide +kernel), by decide +kernel⟩
theorem witness_DrainEndsAtTransmitComplete :
    let i : Inputs := { txComplete := true }
    let s := standing .tx .drain i
    s.phase = .tx ∧ s.txState = .drain ∧ Meets s i [] ∧ i.txComplete = true := ⟨rfl, rfl, ⟨rfl, rfl, rfl⟩, rfl⟩
theorem witness_PostSettleReleasesTheLine :
    let i : Inputs := { postDone := true }
    let s := standing .tx .post i
    s.phase = .tx ∧ s.txState = .post ∧ Meets s i [] ∧ i.postDone = true := ⟨rfl, rfl, ⟨rfl, rfl, rfl⟩, rfl⟩
theorem witness_ResponseIsSentOnceInOrder :
    let s := responding {}
    invariant s = true ∧ s.rst = false ∧ s.phase = .tx ∧ s.txState = .pre := by decide +kernel
theorem witness_LineIsDrivenWheneverAByteIsSent :
    let s := sending 0 { txReady := true }
    invariant s = true ∧ nextIs (step s) (fun t => decide (t.emitted = s.emitted ++ [.txByte 0x01])) = true := by
  decide +kernel
/-- With nothing to come, and with an instant to come. -/
theorem witness_StepRunsTheDecodedInstruction :
    let s := accepted [0x44, 0x30]
    (s.phase = .dispatch ∧ s.rst = false ∧ s.inputs = [] ∧ fetch s = .ok [0x44, 0x30]
      ∧ decode [0x44, 0x30] = .ok (.d [0x30]))
    ∧ (facing s [.instant {}]).inputs = [.instant {}] ∧ ({} : Inputs).rst = false :=
  ⟨⟨rfl, rfl, rfl, rfl, rfl⟩, rfl, rfl⟩
/-- In each phase and each transmit state, two instants that differ in every other signal. -/
theorem witness_OnlyTheAwaitedEventMatters :
    let j : Inputs := { rxValid := true, rxData := 0x01, txReady := true, txComplete := true, preDone := true, postDone := true
                        capRspValid := true, capRspOk := true, capRspContent := [0x31], addrStrapN := 0 }
    ({} : Inputs).rst = false ∧ j.rst = false
      ∧ AgreeOnAwaited (standing .rx .idle {}) {} { j with rxValid := false, rxData := 0 }
      ∧ AgreeOnAwaited (standing .dispatch .idle {}) {} j
      ∧ AgreeOnAwaited (standing .capWait .idle {}) { capRspValid := true, capRspContent := [0x31] } j
      ∧ AgreeOnAwaited (standing .tx .pre {}) {} { j with preDone := false }
      ∧ AgreeOnAwaited (standing .tx .send {}) {} { j with txReady := false }
      ∧ AgreeOnAwaited (standing .tx .drain {}) {} { j with txComplete := false }
      ∧ AgreeOnAwaited (standing .tx .post {}) {} { j with postDone := false } :=
  ⟨rfl, rfl, ⟨rfl, rfl, rfl⟩, trivial, ⟨rfl, rfl⟩, rfl, rfl, rfl, rfl⟩
/-- Each of the six waits. -/
theorem witness_EngineHoldsWithoutItsEvent :
    ∀ p ∈ [(Phase.rx, TxState.idle), (.capWait, .idle), (.tx, .pre), (.tx, .send), (.tx, .drain), (.tx, .post)],
      let s := standing p.1 p.2 {}
      Meets s {} [] ∧ s.phase = p.1 ∧ s.txState = p.2 := fun _ _ => ⟨⟨rfl, rfl, rfl⟩, rfl, rfl⟩
theorem witness_ResetAlwaysTakesEffect :
    let i : Inputs := { rst := true, txReady := true }
    (sending 3 i).inputs = [.instant i] ∧ i.rst = true := ⟨rfl, rfl⟩
/-- With the straps settled, and with a strap changing. -/
theorem witness_ReleaseSamplesTheAddress :
    ∀ b ∈ [true, false],
      let i : Inputs := { strapsSettled := b }
      (held i).inputs = [.instant i] ∧ i.rst = false ∧ (held i).rst = true ∧ configOk (held i).cfg = true := by
  decide +kernel
theorem witness_IllFormedConfigurationIsRefused :
    let s := { held {} with cfg := { testConfig with rawCap := 6 } }
    s.inputs = [.instant {}] ∧ ({} : Inputs).rst = false ∧ s.rst = true ∧ configOk s.cfg = false := by
  decide +kernel
/-- The last place of the counter. -/
theorem witness_UptimeGrowsOncePerCycle :
    let s := { State.reset with tickCounter := 49 }
    s.rst = false ∧ s.tickCounter < s.cfg.ticksPerSecond := by decide
/-- With the counter wrapping and not, while receiving and while a frame is being decoded. -/
theorem witness_TickChangesOnlyTheScheduler :
    ∀ n ∈ [48, 49], ∀ base ∈ [State.reset, accepted [0x50]],
      let s := { base with tickCounter := n, inputs := [.tick] }
      s.inputs = [.tick] ∧ s.rst = false ∧ ((s.tickCounter + 1) % s.cfg.ticksPerSecond = 0 ↔ n = 49) := by decide +kernel
/-- In each phase. -/
theorem witness_StepKeepsTheInvariant :
    ∀ s ∈ [lastDigit, describing, { accepted [0x58] with earlierUptimes := [0], uptimeSeconds := 1 },
        reading { capRspValid := true }, writing { capRspValid := true },
        responding { preDone := true }, sending 31 { txReady := true }, held {}],
      invariant s = true ∧ nextIs (step s) (fun _ => true) = true := by
  decide +kernel
theorem witness_InvariantStatesNeverStop :
    ∀ s ∈ [lastDigit, describing, reading { capRspValid := true, capRspContent := List.replicate 64 0x31 }, sending 31 {}],
      invariant s = true ∧ providersKeepBound s = true := by
  decide +kernel
theorem witness_StepKeepsTheConfiguration : nextIs (step describing) (fun _ => true) = true := by decide +kernel
theorem witness_AddressChangesOnlyAtRelease :
    let s := held { addrStrapN := 0 }
    nextIs (step s) (fun t => decide (t.devAddr ≠ s.devAddr)) = true := by decide +kernel
theorem witness_NeverReceivesWhileDriving :
    (invariant State.reset = true ∧ State.reset.rxReady = true)
      ∧ (invariant (sending 3 {}) = true ∧ (sending 3 {}).deOut = true) := by
  decide +kernel

end Sys2Proof.Tests
end

/-! PROOFS. Hexadecimal and decimal renderings, the decimal field grammar and the error payloads (spec/30_encoding.md). -/

namespace Sys2Proof.Laws.Encoding
open Sys2Proof.Machine Sys2Proof.Safety

/-! Hexadecimal digits (R76). -/

theorem hex1_toNat (n : BitVec 4) :
    (hex1 n).toNat = if n.toNat ≤ 9 then 0x30 + n.toNat else 0x41 + (n.toNat - 10) := by
  by_cases h : n ≤ 9#4
  · have hn : n.toNat ≤ 9 := h
    rw [hex1, if_pos h, if_pos hn]
    bv_omega
  · have hn : ¬ n.toNat ≤ 9 := h
    rw [hex1, if_neg h, if_neg hn]
    bv_omega

theorem hex1_injective : Function.Injective hex1 := by
  intro m n h
  have hnat : (hex1 m).toNat = (hex1 n).toNat := congrArg BitVec.toNat h
  rw [hex1_toNat, hex1_toNat] at hnat
  apply BitVec.eq_of_toNat_eq
  split at hnat <;> split at hnat <;> omega

theorem toNat_eq_two_nibbles (v : BitVec 8) :
    v.toNat = 16 * (v.extractLsb' 4 4).toNat + (v.extractLsb' 0 4).toNat := by
  simp only [BitVec.extractLsb'_toNat, Nat.shiftRight_eq_div_pow]
  omega

theorem toNat_eq_four_nibbles (v : BitVec 16) :
    v.toNat = 4096 * (v.extractLsb' 12 4).toNat + 256 * (v.extractLsb' 8 4).toNat
      + 16 * (v.extractLsb' 4 4).toNat + (v.extractLsb' 0 4).toNat := by
  simp only [BitVec.extractLsb'_toNat, Nat.shiftRight_eq_div_pow]
  omega

theorem hex4_injective : Function.Injective hex4 := by
  intro v w h
  simp only [hex4, List.cons.injEq, hex1_injective.eq_iff, and_true] at h
  obtain ⟨h3, h2, h1, h0⟩ := h
  apply BitVec.eq_of_toNat_eq
  rw [toNat_eq_four_nibbles v, toNat_eq_four_nibbles w, h3, h2, h1, h0]

/-- Settles O4: the digits by their two ranges, the words by their nibbles. -/
theorem hexRenderingIsUppercaseAndFaithful : Obligations.HexRenderingIsUppercaseAndFaithful :=
  ⟨hex1_toNat, fun v => ⟨_, _, _, _, rfl, toNat_eq_four_nibbles v⟩,
    fun v => ⟨_, _, rfl, toNat_eq_two_nibbles v⟩, fun _ _ h => hex4_injective h⟩

/-! Decimal digits and the value they spell (R78, R80). -/

theorem isDigit_iff (b : Byte) : isDigit b = true ↔ 0x30 ≤ b.toNat ∧ b.toNat ≤ 0x39 := by
  simp [isDigit]

theorem digitChar_toNat {d : Nat} (h : d < 10) : (digitChar d).toNat = 0x30 + d := by
  rw [digitChar, BitVec.toNat_ofNat]
  omega

theorem decimalValue_concat (ds : List Byte) (b : Byte) :
    decimalValue (ds ++ [b]) = 10 * decimalValue ds + (b.toNat - 0x30) := by
  simp [decimalValue]

theorem decimalValue_append (as bs : List Byte) :
    decimalValue (as ++ bs) = decimalValue as * 10 ^ bs.length + decimalValue bs := by
  induction bs using List.reverseRecOn with
  | nil => simp [decimalValue]
  | append_singleton bs b ih =>
    rw [← List.append_assoc, decimalValue_concat, decimalValue_concat, ih, List.length_append,
      List.length_singleton]
    ring

theorem decimalValue_cons (b : Byte) (bs : List Byte) :
    decimalValue (b :: bs) = (b.toNat - 0x30) * 10 ^ bs.length + decimalValue bs := by
  simpa [decimalValue] using decimalValue_append [b] bs

theorem decimalValue_lt_pow_length (ds : List Byte) (h : ∀ b ∈ ds, 0x30 ≤ b.toNat ∧ b.toNat ≤ 0x39) :
    decimalValue ds < 10 ^ ds.length := by
  induction ds using List.reverseRecOn with
  | nil => simp [decimalValue]
  | append_singleton ds b ih =>
    have hds : decimalValue ds < 10 ^ ds.length := ih fun c hc => h c (by simp [hc])
    have hb := h b (by simp)
    rw [decimalValue_concat, List.length_append, List.length_singleton, Nat.pow_succ]
    omega

/-! `dec` writes Mathlib's `Nat.digits`, which list the least significant digit first (R78). -/

theorem decDigits_eq_digits (fuel n : Nat) (hpos : 0 < n) (hfuel : n ≤ fuel) :
    decDigits fuel n = ((Nat.digits 10 n).map digitChar).reverse := by
  induction fuel generalizing n with
  | zero => omega
  | succ fuel ih =>
    rw [decDigits]
    split
    next hlt => simp [Nat.digits_of_lt 10 n hpos.ne' hlt]
    next hge =>
      have hdiv : decDigits fuel (n / 10) = ((Nat.digits 10 (n / 10)).map digitChar).reverse :=
        ih (n / 10) (by omega) (by omega)
      simp [Nat.digits_def' (by decide : 1 < 10) hpos, hdiv]

theorem dec_eq_digits {n : Nat} (hpos : 0 < n) : dec n = ((Nat.digits 10 n).map digitChar).reverse :=
  decDigits_eq_digits n n hpos le_rfl

@[simp] theorem dec_zero : dec 0 = [0x30] := rfl

theorem decimalValue_reverse_map_digitChar (ds : List Nat) (h : ∀ d ∈ ds, d < 10) :
    decimalValue (ds.map digitChar).reverse = Nat.ofDigits 10 ds := by
  induction ds with
  | nil => rfl
  | cons d ds ih =>
    have hd : (digitChar d).toNat - 0x30 = d := by
      rw [digitChar_toNat (h d (by simp)), Nat.add_sub_cancel_left]
    have hds := ih fun e he => h e (by simp [he])
    rw [List.map_cons, List.reverse_cons, decimalValue_concat, hds, hd, Nat.ofDigits_cons]
    simp [Nat.add_comm]

theorem decimalValue_dec (n : Nat) : decimalValue (dec n) = n := by
  obtain rfl | hpos := n.eq_zero_or_pos
  · rfl
  · rw [dec_eq_digits hpos,
      decimalValue_reverse_map_digitChar _ fun d hd => Nat.digits_lt_base (by decide) hd,
      Nat.ofDigits_digits]

theorem isDecimal_dec (n : Nat) : IsDecimal (dec n) := by
  obtain rfl | hpos := n.eq_zero_or_pos
  · exact ⟨by simp, by simp⟩
  · rw [dec_eq_digits hpos]
    refine ⟨by simpa [Nat.digits_eq_nil_iff_eq_zero] using hpos.ne', fun b hb => ?_⟩
    obtain ⟨d, hd, rfl⟩ : ∃ d ∈ Nat.digits 10 n, digitChar d = b := by simpa using hb
    have hlt : d < 10 := Nat.digits_lt_base (by decide) hd
    rw [digitChar_toNat hlt]
    omega

theorem length_dec_le {n : Nat} {ds : List Byte} (hds : IsDecimal ds) (hn : decimalValue ds = n) :
    (dec n).length ≤ ds.length := by
  obtain ⟨hne, hdigits⟩ := hds
  obtain rfl | hpos := n.eq_zero_or_pos
  · exact List.length_pos_iff.mpr hne
  · have hlt : n < 10 ^ ds.length := hn ▸ decimalValue_lt_pow_length ds hdigits
    rw [dec_eq_digits hpos, List.length_reverse, List.length_map]
    exact (Nat.digits_length_le_iff (by decide) n).mpr hlt

theorem head?_dec_ne_zero {n : Nat} (hn : n ≠ 0) : (dec n).head? ≠ some 0x30 := by
  have hne : Nat.digits 10 n ≠ [] := Nat.digits_ne_nil_iff_ne_zero.mpr hn
  have hlead : (Nat.digits 10 n).getLast hne ≠ 0 := Nat.getLast_digit_ne_zero 10 hn
  have hlt : (Nat.digits 10 n).getLast hne < 10 := Nat.digits_lt_base (by decide) (List.getLast_mem hne)
  rw [dec_eq_digits (Nat.pos_of_ne_zero hn), List.head?_reverse, List.getLast?_map,
    List.getLast?_eq_some_getLast hne]
  intro h
  have hchar : (digitChar ((Nat.digits 10 n).getLast hne)).toNat = 0x30 :=
    congrArg BitVec.toNat (Option.some.inj h)
  rw [digitChar_toNat hlt] at hchar
  omega

/-- Settles O5: `dec` writes the digits of `Nat.digits`, and `k` digits spell less than `10 ^ k`. -/
theorem decimalRenderingIsShortest : Obligations.DecimalRenderingIsShortest := fun n =>
  ⟨isDecimal_dec n, decimalValue_dec n, fun _ hds hn => length_dec_le hds hn, head?_dec_ne_zero, dec_zero⟩

/-! The decimal field grammar (R80). -/

/-- The digit loop with the value `acc` of the digits already read. -/
theorem parseDigits_eq_some_iff (bs : List Byte) (acc v : Nat) :
    parseDigits bs acc = some v ↔
      (∀ b ∈ bs, 0x30 ≤ b.toNat ∧ b.toNat ≤ 0x39) ∧ acc * 10 ^ bs.length + decimalValue bs = v := by
  induction bs generalizing acc with
  | nil => simp [parseDigits, decimalValue]
  | cons b bs ih =>
    rw [parseDigits]
    split
    next hb =>
      have hvalue : (10 * acc + (b.toNat - 0x30)) * 10 ^ bs.length + decimalValue bs
          = acc * 10 ^ (b :: bs).length + decimalValue (b :: bs) := by
        rw [decimalValue_cons, List.length_cons]
        ring
      rw [ih, hvalue, List.forall_mem_cons, ← isDigit_iff b]
      simp [hb]
    next hb =>
      rw [List.forall_mem_cons, ← isDigit_iff b]
      simp [hb]

theorem parseNum_eq_some_iff (numMax : Nat) (field : List Byte) (v : Nat) :
    parseNum numMax field = some v ↔ field ≠ [] ∧ parseDigits field 0 = some v ∧ v ≤ numMax := by
  cases field with
  | nil => simp [parseNum]
  | cons b bs =>
    cases h : parseDigits (b :: bs) 0 with
    | none => simp [parseNum, h]
    | some u =>
      have hbound : (u ≤ numMax ∧ u = v) ↔ (u = v ∧ v ≤ numMax) := by omega
      simpa [parseNum, h] using hbound

/-- Settles O6, by induction on the field for the digit loop. -/
theorem decimalFieldParsesExactlyWhenStrict : Obligations.DecimalFieldParsesExactlyWhenStrict := by
  intro numMax field v
  rw [parseNum_eq_some_iff, parseDigits_eq_some_iff, Nat.zero_mul, Nat.zero_add, IsDecimal]
  simp only [and_assoc]

/-! Error payloads (R85). -/

/-- Settles O8, one name at a time. -/
theorem errorPayloadsAreNakAndTheName : Obligations.ErrorPayloadsAreNakAndTheName := by
  intro e name h
  simp only [List.mem_cons, Prod.mk.injEq, List.not_mem_nil, or_false] at h
  obtain ⟨rfl, rfl⟩ | ⟨rfl, rfl⟩ | ⟨rfl, rfl⟩ | ⟨rfl, rfl⟩ := h
  · rfl
  · rfl
  · rfl
  · rfl

end Sys2Proof.Laws.Encoding

/-! PROOFS. One receive event in each receive state (spec/41_receive.md). -/

namespace Sys2Proof.Laws.Receive
open Sys2Proof.Machine Sys2Proof.Safety

/-! The step of a receive event, by the order of R120: framing error, SOH, then the rule of the receive state. -/

theorem step_of_rxValid {s : State} {i : Inputs} {rest : List Event} (hm : Meets s i rest) (hp : s.phase = .rx)
    (hv : i.rxValid = true) : step s = toOutcome (receive i.rxData i.rxFerr { s with inputs := rest }) := by
  obtain ⟨hin, hi, hs⟩ := hm
  simp [step, engine, hin, instantStep, hi, hs, engineStep, hp, receiveStep, hv]

theorem step_of_receives {s : State} {b : Byte} {rest : List Event} (hr : Receives s b rest) :
    step s = toOutcome (receive b false { s with inputs := rest }) := by
  obtain ⟨hp, i, hm, hv, hf, rfl⟩ := hr
  rw [step_of_rxValid hm hp hv, hf]

theorem step_of_soh {s : State} {rest : List Event} (hr : Receives s 0x01 rest) :
    step s = toOutcome (rxSoh { s with inputs := rest }) := step_of_receives hr

/-- R120: a good byte other than SOH does what the rule of the receive state says. -/
theorem step_of_rule {s t : State} {b : Byte} {rest : List Event} (hr : Receives s b rest) (hb : b ≠ 0x01)
    (hrule : rxByState b { s with inputs := rest } = .ok t) : step s = .next t := by
  have hgood : receive b false { s with inputs := rest } = rxByState b { s with inputs := rest } := if_neg hb
  rw [step_of_receives hr, hgood, hrule]
  rfl

/-! What the rule of each receive state answers, when its buffers have room and its registers hold a value. -/

theorem appendRaw_of_lt {s : State} (b : Byte) (h : s.rawLen < s.cfg.rawCap) :
    appendRaw b s = .ok { s with raw := Memory.write s.raw s.rawLen b, rawLen := s.rawLen + 1 } :=
  appendRaw_ok.2 ⟨h, rfl⟩

/-- R125. -/
theorem rxByState_idle {s : State} {b : Byte} (hs : s.rxState = .idle) : rxByState b s = .ok s := by
  rw [rxByState, hs]; rfl

/-- R126 to R128, R130. -/
theorem rxByState_header {s : State} {want b : Byte} {after : RxState}
    (hs : headerExpects s.devAddr s.rxState = some (want, after)) (hcap : s.rawLen < s.cfg.rawCap) :
    rxByState b s = .ok (if b = want then
        { s with raw := Memory.write s.raw s.rawLen b, rawLen := s.rawLen + 1, rxState := after }
      else s.abort) := by
  have hrule : rxByState b s = rxExpect want after b s := by
    unfold rxByState
    cases hr : s.rxState <;> rw [hr] at hs <;> cases hs <;> rfl
  rw [hrule, rxExpect, appendRaw_of_lt b hcap]
  split <;> rfl

theorem isLetter_iff (b : Byte) : isLetter b = true ↔ 0x41 ≤ b.toNat ∧ b.toNat ≤ 0x5A := by
  simp [isLetter]

/-- R129. -/
theorem rxByState_cmd {s : State} {b : Byte} (hs : s.rxState = .cmd) (hcap : s.rawLen < s.cfg.rawCap) :
    rxByState b s = .ok (if 0x41 ≤ b.toNat ∧ b.toNat ≤ 0x5A then
        { s with raw := Memory.write s.raw s.rawLen b, rawLen := s.rawLen + 1, cmd := b, rxState := .cstart }
      else s.abort) := by
  have hrule : rxByState b s = rxCmd b s := by rw [rxByState, hs]
  rw [hrule, rxCmd, appendRaw_of_lt b hcap]
  simp only [isLetter_iff]
  split <;> rfl

theorem rxByState_content {s : State} {b : Byte} (hs : s.rxState = .content) : rxByState b s = rxContent b s := by
  rw [rxByState, hs]

/-- R131: whether the buffer is full is looked at before the byte is. -/
theorem rxByState_content_full {s : State} {b : Byte} (hs : s.rxState = .content) (hfull : s.rawLen = s.cfg.rawCap) :
    rxByState b s = .ok s.abort := by
  rw [rxByState_content hs, rxContent, if_pos hfull]
  rfl

/-- R132: the bytes held are without a gap, so every byte that the checksum covers can be read. -/
theorem rxByState_content_etx {s : State} (hs : s.rxState = .content) (hcap : s.rawLen < s.cfg.rawCap)
    (hheld : (bytesBelow s.raw s.rawLen).length = s.rawLen) :
    rxByState etx s = .ok { s with raw := Memory.write s.raw s.rawLen etx, rawLen := s.rawLen + 1
                                   expCrc := crc16 s.cfg.crc (bytesBelow s.raw s.rawLen ++ [etx]), rxState := .ck0 } := by
  rw [rxByState_content hs, rxContent, if_neg hcap.ne, if_pos rfl]
  exact rxContentEnd_ok.2 ⟨hcap, hheld, rfl⟩

/-- R133. -/
theorem rxByState_content_data {s : State} {b : Byte} (hs : s.rxState = .content) (hcap : s.rawLen < s.cfg.rawCap)
    (hb : b ≠ etx) :
    rxByState b s = .ok (if s.contentLen < s.cfg.contentCap then
        { s with raw := Memory.write s.raw s.rawLen b, rawLen := s.rawLen + 1
                 content := Memory.write s.content s.contentLen b, contentLen := s.contentLen + 1 }
      else { s with raw := Memory.write s.raw s.rawLen b, rawLen := s.rawLen + 1 }) := by
  rw [rxByState_content hs, rxContent, if_neg hcap.ne, if_neg hb, rxContentData, appendRaw_of_lt b hcap]
  by_cases hroom : s.contentLen < s.cfg.contentCap
  · rw [if_pos hroom]
    exact (if_pos hroom).trans (appendContent_ok.2 ⟨hroom, rfl⟩)
  · rw [if_neg hroom]
    exact if_neg hroom

/-- R134 to R137: `EXP_CRC` holds a value in the checksum states, so a digit is compared. -/
theorem rxDigit_of_hasExpCrc {s : State} {lo : Nat} {matched : State → Except Fault State} {b : Byte}
    (hs : s.rxState.hasExpCrc = true) :
    rxDigit lo matched b s = if b = hex1 (s.expCrc.extractLsb' lo 4) then matched s else .ok s.abort := by
  rw [rxDigit, readExpCrc, if_pos hs]

/-- R134 to R136. -/
theorem rxByState_digit {s : State} {b : Byte} {lo : Nat} {after : RxState}
    (hs : digitExpects s.rxState = some (lo, after)) :
    rxByState b s = .ok (if b = hex1 (s.expCrc.extractLsb' lo 4) then { s with rxState := after } else s.abort) := by
  have hrule : s.rxState.hasExpCrc = true
      ∧ rxByState b s = rxDigit lo (fun u => .ok { u with rxState := after }) b s := by
    unfold rxByState
    cases hr : s.rxState <;> rw [hr] at hs <;> cases hs <;> exact ⟨rfl, rfl⟩
  obtain ⟨hcrc, hdigit⟩ := hrule
  rw [hdigit, rxDigit_of_hasExpCrc hcrc]
  split <;> rfl

/-- R137, R138. -/
theorem rxByState_ck3 {s : State} {b : Byte} (hs : s.rxState = .ck3) :
    rxByState b s = .ok (if b = hex1 (s.expCrc.extractLsb' 0 4) then
        { s with dcmd := s.cmd, dlen := s.contentLen, rxState := .idle, rawLen := 0, contentLen := 0
                 phase := .dispatch, earlierUptimes := [] }
      else s.abort) := by
  have hrule : rxByState b s = rxDigit 0 accept b s := by rw [rxByState, hs]; rfl
  have hcrc : s.rxState.hasExpCrc = true := by rw [hs]; rfl
  have hcmd : s.rxState.hasCmd = true := by rw [hs]; rfl
  rw [hrule, rxDigit_of_hasExpCrc hcrc, accept_ok.2 ⟨hcmd, rfl⟩]
  split <;> rfl

/-! Framing errors and SOH (R122 to R124), and `IDLE` (R125). -/

/-- Settles O13: the framing error is looked at before the byte and the receive state are. -/
theorem framingErrorByteIsDiscarded : Obligations.FramingErrorByteIsDiscarded := by
  intro s i rest hp hm hv hf
  rw [step_of_rxValid hm hp hv, hf]
  rfl

/-- Settles O14, by the session start. -/
theorem sohRestartsTheSession : Obligations.SohRestartsTheSession := by
  intro s rest hr hcap hrestart
  rw [step_of_soh hr, rxSoh, if_neg hrestart]
  exact toOutcome_next.2 (startSession_ok.2 ⟨hcap, rfl⟩)

/-- Settles O15, by the exception of R124 to the session start. -/
theorem sohInAddr0UnderToIdleAborts : Obligations.SohInAddr0UnderToIdleAborts := by
  intro s rest hr hs hcfg
  rw [step_of_soh hr, rxSoh, if_pos ⟨hs, hcfg⟩]
  rfl

/-- Settles O16, by the rule of `IDLE`. -/
theorem idleDiscardsOtherBytes : Obligations.IdleDiscardsOtherBytes := by
  intro s b rest hr hb hs
  exact step_of_rule hr hb (rxByState_idle hs)

/-! The header and the command letter (R126 to R130). -/

/-- The statement's table of header states is the model's. -/
theorem headerExpects_of_mem {addr : BitVec 5} {r after : RxState} {want : Byte}
    (h : (r, want, after) ∈
        [(RxState.addr0, hex1 ((addr.setWidth 8 : Byte).extractLsb' 4 4), RxState.addr1),
         (RxState.addr1, hex1 ((addr.setWidth 8 : Byte).extractLsb' 0 4), RxState.sep),
         (RxState.sep, 0x3A, RxState.cmd), (RxState.cstart, 0x02, RxState.content)]) :
    headerExpects addr r = some (want, after) := by
  simp only [List.mem_cons, Prod.mk.injEq, List.not_mem_nil, or_false] at h
  obtain ⟨rfl, rfl, rfl⟩ | ⟨rfl, rfl, rfl⟩ | ⟨rfl, rfl, rfl⟩ | ⟨rfl, rfl, rfl⟩ := h <;> rfl

/-- Settles O17: the four header states follow one rule. -/
theorem headerBytesAdvanceOrAbort : Obligations.HeaderBytesAdvanceOrAbort := by
  intro s b rest hr hb hcap want after hmem
  exact step_of_rule hr hb (rxByState_header (headerExpects_of_mem hmem) hcap)

/-- Settles O18, by the rule of `CMD`. -/
theorem commandByteIsRecordedOrAborts : Obligations.CommandByteIsRecordedOrAborts := by
  intro s b rest hr hb hs hcap
  exact step_of_rule hr hb (rxByState_cmd hs hcap)

/-! The content (R131 to R133). -/

/-- Settles O19, by the first of the three rules of `CONTENT`. -/
theorem fullRawBufferAborts : Obligations.FullRawBufferAborts := by
  intro s b rest hr hb hs hfull
  exact step_of_rule hr hb (rxByState_content_full hs hfull)

/-- Settles O20, by the second of the three rules of `CONTENT`. -/
theorem etxEndsContentAndComputesChecksum : Obligations.EtxEndsContentAndComputesChecksum := by
  intro s rest hr hs hcap hheld
  exact step_of_rule hr (by decide) (rxByState_content_etx hs hcap hheld)

/-- Settles O21, by the third of the three rules of `CONTENT`. -/
theorem contentByteIsKeptOrTruncated : Obligations.ContentByteIsKeptOrTruncated := by
  intro s b rest hr hsoh hetx hs hcap
  exact step_of_rule hr hsoh (rxByState_content_data hs hcap hetx)

/-! The checksum digits (R134 to R138). -/

/-- The statement's table of checksum states is the model's. -/
theorem digitExpects_of_mem {r after : RxState} {lo : Nat}
    (h : (r, lo, after) ∈
        [(RxState.ck0, 12, RxState.ck1), (RxState.ck1, 8, RxState.ck2), (RxState.ck2, 4, RxState.ck3)]) :
    digitExpects r = some (lo, after) := by
  simp only [List.mem_cons, Prod.mk.injEq, List.not_mem_nil, or_false] at h
  obtain ⟨rfl, rfl, rfl⟩ | ⟨rfl, rfl, rfl⟩ | ⟨rfl, rfl, rfl⟩ := h <;> rfl

/-- Settles O22: the three states follow one rule, each at its own nibble. -/
theorem checksumDigitsAdvanceOrAbort : Obligations.ChecksumDigitsAdvanceOrAbort := by
  intro s b rest hr hb lo after hmem
  exact step_of_rule hr hb (rxByState_digit (digitExpects_of_mem hmem))

/-- Settles O23: acceptance begins with no earlier uptime (log 24); an abort leaves that record as it was. -/
theorem lastDigitAcceptsTheFrame : Obligations.LastDigitAcceptsTheFrame := by
  intro s b rest hr hb hs
  exact ⟨[], step_of_rule hr hb (rxByState_ck3 hs)⟩

end Sys2Proof.Laws.Receive

/-! PROOFS. The commands and the capability answers (spec/42_commands.md). -/

namespace Sys2Proof.Laws.Commands
open Sys2Proof.Machine Sys2Proof.Safety

/-! What a well-formed configuration (R45) leaves room for in a response. -/

theorem errorContent_fits {cfg : Config} (hc : configOk cfg = true) (e : ErrorName) :
    (errorContent e).length ≤ cfg.respContentCap := by
  have hcap : 18 ≤ cfg.respContentCap := by
    simp only [configOk, parametersOk, Bool.and_eq_true, decide_eq_true_eq] at hc
    tauto
  exact (errorContent_length e).trans hcap

theorem describeContent_fits {cfg : Config} {d : Descriptor} (hc : configOk cfg = true) (hd : d ∈ cfg.registry) :
    (describeContent cfg d).length ≤ cfg.respContentCap := by
  have hdesc : descriptorOk cfg d = true := by
    obtain ⟨-, hall⟩ := Bool.and_eq_true_iff.1 hc
    exact List.all_eq_true.1 hall d hd
  obtain ⟨-, hfits⟩ := Bool.and_eq_true_iff.1 hdesc
  exact of_decide_eq_true hfits

/-- R160: an outcome that is a response whose content fits is the next state, with the response built. -/
theorem answers_of_fits {o : Host.Outcome State Fault Refusal} {k : List Byte} {s : State}
    (ho : o = toOutcome (respond k s)) (hk : k.length ≤ s.cfg.respContentCap) (hp : s.phase ≠ .rx) :
    ∃ t, o = .next t ∧ RespondsWith k s t := by
  obtain ⟨t, hok, hresp⟩ := respond_of_fits hk hp
  exact ⟨t, ho.trans (toOutcome_next.2 hok), hresp⟩

/-- R240: in `DISPATCH`, an error is always reported. -/
theorem answers_error {o : Host.Outcome State Fault Refusal} {e : ErrorName} {s : State}
    (ho : o = toOutcome (enterError e s)) (hp : s.phase = .dispatch) (hc : configOk s.cfg = true) :
    ∃ t, o = .next t ∧ RespondsWith (errorContent e) s t :=
  answers_of_fits ho (errorContent_fits hc e) (by simp [hp])

/-! `D` (R164): one equation per outcome of its checks. -/

section
variable {s : State} {c : List Byte} {channel : Nat}

theorem exec_d_malformed (hop : operandD s.cfg c = none) :
    exec (.d c) s = toOutcome (enterError .parameterError s) := by
  simp only [exec, execD, hop]

theorem exec_d_no_channel (hop : operandD s.cfg c = some channel) (hd : s.cfg.registry[channel]? = none) :
    exec (.d c) s = toOutcome (enterError .invalidChannel s) := by
  simp only [exec, execD, hop, hd]

theorem exec_d_channel {d : Descriptor} (hop : operandD s.cfg c = some channel)
    (hd : s.cfg.registry[channel]? = some d) :
    exec (.d c) s = toOutcome (respond (describeContent s.cfg d) s) := by
  simp only [exec, execD, hop, hd]

end

/-- Settles O29, by the two checks in their order. -/
theorem describeAnswersInOrder : Obligations.DescribeAnswersInOrder := by
  intro s c hp hc
  cases hop : parseNum s.cfg.numMax c with
  | none => exact answers_error (exec_d_malformed hop) hp hc
  | some channel =>
    cases hd : s.cfg.registry[channel]? with
    | none =>
      simp only [hd]
      exact answers_error (exec_d_no_channel hop hd) hp hc
    | some d =>
      have hfits := describeContent_fits hc (List.mem_of_getElem? hd)
      simp only [hd]
      exact answers_of_fits (exec_d_channel hop hd) hfits (by simp [hp])

/-! `R` (R165): one equation per outcome of its checks. -/

section
variable {s : State} {c : List Byte} {channel port : Nat}

theorem exec_r_malformed (hop : operandR s.cfg c = none) :
    exec (.r c) s = toOutcome (enterError .parameterError s) := by
  simp only [exec, execR, hop]

theorem exec_r_no_channel (hop : operandR s.cfg c = some (channel, port)) (hd : s.cfg.registry[channel]? = none) :
    exec (.r c) s = toOutcome (enterError .invalidChannel s) := by
  simp only [exec, execR, hop, hd]

variable {d : Descriptor}

theorem exec_r_no_port (hop : operandR s.cfg c = some (channel, port)) (hd : s.cfg.registry[channel]? = some d)
    (hport : d.portCount ≤ port) : exec (.r c) s = toOutcome (enterError .invalidPort s) := by
  simp only [exec, execR, hop, hd, if_pos hport]

theorem exec_r_port (hop : operandR s.cfg c = some (channel, port)) (hd : s.cfg.registry[channel]? = some d)
    (hport : port < d.portCount) : exec (.r c) s = .next (s.requestRead channel port) := by
  simp only [exec, execR, hop, hd, if_neg hport.not_ge]

end

/-- Settles O30, by the request and the three errors. -/
theorem readChecksInOrder : Obligations.ReadChecksInOrder := by
  intro s c hp hc
  refine ⟨?request, ?malformed, ?noChannel, ?noPort⟩
  case request => exact fun channel port d hop hd hport => exec_r_port hop hd hport
  case malformed => exact fun hop => answers_error (exec_r_malformed hop) hp hc
  case noChannel =>
    intro channel port hop hlen
    exact answers_error (exec_r_no_channel hop (List.getElem?_eq_none hlen)) hp hc
  case noPort => exact fun channel port d hop hd hport => answers_error (exec_r_no_port hop hd hport) hp hc

/-! `W` (R166): one equation per outcome of its checks. -/

section
variable {s : State} {c value : List Byte} {channel port : Nat}

theorem exec_w_malformed (hop : operandW s.cfg c = none) :
    exec (.w c) s = toOutcome (enterError .parameterError s) := by
  simp only [exec, execW, hop]

theorem exec_w_no_channel (hop : operandW s.cfg c = some (channel, port, value))
    (hd : s.cfg.registry[channel]? = none) : exec (.w c) s = toOutcome (enterError .invalidChannel s) := by
  simp only [exec, execW, hop, hd]

variable {d : Descriptor}

/-- R166: whether the port exists is not looked at. -/
theorem exec_w_read_only (hop : operandW s.cfg c = some (channel, port, value))
    (hd : s.cfg.registry[channel]? = some d) (ha : d.access = .readOnly) :
    exec (.w c) s = toOutcome (enterError .channelReadOnly s) := by
  simp only [exec, execW, hop, hd, if_pos ha]

theorem exec_w_no_port (hop : operandW s.cfg c = some (channel, port, value))
    (hd : s.cfg.registry[channel]? = some d) (ha : d.access = .readWrite) (hport : d.portCount ≤ port) :
    exec (.w c) s = toOutcome (enterError .invalidPort s) := by
  have hro : d.access ≠ .readOnly := by simp [ha]
  simp only [exec, execW, hop, hd, if_neg hro, if_pos hport]

theorem exec_w_port (hop : operandW s.cfg c = some (channel, port, value))
    (hd : s.cfg.registry[channel]? = some d) (ha : d.access = .readWrite) (hport : port < d.portCount) :
    exec (.w c) s = .next (s.requestWrite channel port value) := by
  have hro : d.access ≠ .readOnly := by simp [ha]
  simp only [exec, execW, hop, hd, if_neg hro, if_neg hport.not_ge]

end

/-- Settles O31, by the request and the four errors. -/
theorem writeChecksInOrder : Obligations.WriteChecksInOrder := by
  intro s c hp hc
  refine ⟨?request, ?malformed, ?noChannel, ?readOnly, ?noPort⟩
  case request => exact fun channel port value d hop hd ha hport => exec_w_port hop hd ha hport
  case malformed => exact fun hop => answers_error (exec_w_malformed hop) hp hc
  case noChannel =>
    intro channel port value hop hlen
    exact answers_error (exec_w_no_channel hop (List.getElem?_eq_none hlen)) hp hc
  case readOnly =>
    exact fun channel port value d hop hd ha => answers_error (exec_w_read_only hop hd ha) hp hc
  case noPort =>
    exact fun channel port value d hop hd ha hport => answers_error (exec_w_no_port hop hd ha hport) hp hc

/-! The letters that spell no operation (R167). -/

/-- A letter other than `P`, `D`, `R` and `W` returns the engine to receiving. -/
theorem exec_of_other_letter {i : Instr} (hi : i.letter ∉ [0x50, 0x44, 0x52, 0x57]) (s : State) :
    exec i s = .next s.noResponse := by
  cases i with
  | p c | d c | r c | w c => simp [Instr.letter] at hi
  | _ c => rfl

/-- Settles O32: none of the 22 letters is that of a command. -/
theorem otherLettersOnlyReturnToReceiving : Obligations.OtherLettersOnlyReturnToReceiving := by
  intro s c i hi
  refine exec_of_other_letter ?_ s
  revert i
  simp [Instr.letter]

/-! The capability answers (R168, R169). -/

section
variable {s : State} {i : Inputs} {rest : List Event}

theorem step_of_capWait (hm : Meets s i rest) (hp : s.phase = .capWait) :
    step s = toOutcome (capabilityAnswer i { s with inputs := rest }) := by
  obtain ⟨hin, hi, hs⟩ := hm
  simp [step, engine, hin, instantStep, hi, hs, engineStep, hp]

theorem capabilityAnswer_read (hv : i.capRspValid = true) (hk : s.capKind = .read) :
    capabilityAnswer i s = respond i.capRspContent { s with capKind := .none } := by
  rw [capabilityAnswer, if_pos hv, hk]
  rfl

theorem capabilityAnswer_write (hv : i.capRspValid = true) (hk : s.capKind = .write) :
    capabilityAnswer i s = respond [ack] { s with capKind := .none } := by
  rw [capabilityAnswer, if_pos hv, hk]
  rfl

end

/-- Settles O34: the response is built from the answer's content. -/
theorem readAnswerIsSentAsItStands : Obligations.ReadAnswerIsSentAsItStands := by
  intro s i rest hp hk hm hv hfits
  have hstep : step s = toOutcome (respond i.capRspContent { s with inputs := rest, capKind := .none }) :=
    (step_of_capWait hm hp).trans (congrArg toOutcome (capabilityAnswer_read hv hk))
  exact answers_of_fits hstep hfits (by simp [hp])

/-- Settles O35: the response is built from the acknowledgement byte. -/
theorem writeAnswerIsAcknowledged : Obligations.WriteAnswerIsAcknowledged := by
  intro s i rest hp hk hm hv hcap
  have hstep : step s = toOutcome (respond [ack] { s with inputs := rest, capKind := .none }) :=
    (step_of_capWait hm hp).trans (congrArg toOutcome (capabilityAnswer_write hv hk))
  exact answers_of_fits hstep hcap (by simp [hp])

end Sys2Proof.Laws.Commands

/-! PROOFS. The half-duplex transmit sequencer (spec/43_response.md). -/

namespace Sys2Proof.Laws.Transmit
open Sys2Proof.Machine Sys2Proof.Safety

section
variable {s t : State} {i : Inputs} {rest : List Event}

/-- R205 to R208: an instant in `TX` does what the transmit sequencer answers. -/
theorem step_of_transmit (hp : s.phase = .tx) (hm : Meets s i rest)
    (ht : transmit i { s with inputs := rest } = .ok t) : step s = .next t := by
  obtain ⟨hin, hi, hs⟩ := hm
  have hstep : step s = toOutcome (transmit i { s with inputs := rest }) := by
    simp [step, engine, hin, instantStep, hi, hs, engineStep, hp]
  rw [hstep, ht]
  rfl

/-! What the sequencer answers to the event that each transmit state waits for. -/

/-- R205. -/
theorem transmit_pre (hs : s.txState = .pre) (hv : i.preDone = true) : transmit i s = .ok (txPreDone s) := by
  rw [transmit, hs, hv]
  rfl

/-- R206. -/
theorem transmit_send {b : Byte} (hs : s.txState = .send) (hv : i.txReady = true)
    (hb : memRead s .txbuf s.txIdx = .ok b) :
    transmit i s = .ok { s with txIdx := s.txIdx + 1, txState := if s.txIdx + 1 = s.txLen then .drain else .send
                                emitted := s.emitted ++ [.txByte b] } := by
  have htake : transmit i s = txTakeByte s := by
    rw [transmit, hs, hv]
    rfl
  exact htake.trans (txTakeByte_ok.2 ⟨b, hs, hb, rfl⟩)

/-- R207. -/
theorem transmit_drain (hs : s.txState = .drain) (hv : i.txComplete = true) : transmit i s = .ok (txDrained s) := by
  rw [transmit, hs, hv]
  rfl

/-- R208. -/
theorem transmit_post (hs : s.txState = .post) (hv : i.postDone = true) : transmit i s = .ok s.returnToRx := by
  rw [transmit, hs, hv]
  rfl

end

/-- Settles O37, by the rule of `TX_PRE`. -/
theorem preSettleStartsTheStream : Obligations.PreSettleStartsTheStream := by
  intro s i rest hp hs hm hv
  exact step_of_transmit hp hm (transmit_pre hs hv)

/-- Settles O38: the byte at `TX_IDX` stands in a cell of `TXBUF` and below its valid length, so it is read. -/
theorem transmitEventSendsTheNextByte : Obligations.TransmitEventSendsTheNextByte := by
  intro s i rest b hp hs hm hv hb hidx hlen
  have hread : memRead { s with inputs := rest } .txbuf s.txIdx = .ok b :=
    memRead_ok.2 ⟨hidx.trans_le hlen, hidx, hb⟩
  exact step_of_transmit hp hm (transmit_send hs hv hread)

/-- Settles O39, by the rule of `TX_DRAIN`. -/
theorem drainEndsAtTransmitComplete : Obligations.DrainEndsAtTransmitComplete := by
  intro s i rest hp hs hm hv
  exact step_of_transmit hp hm (transmit_drain hs hv)

/-- Settles O40, by the rule of `TX_POST`. -/
theorem postSettleReleasesTheLine : Obligations.PostSettleReleasesTheLine := by
  intro s i rest hp hs hm hv
  exact step_of_transmit hp hm (transmit_post hs hv)

end Sys2Proof.Laws.Transmit

/-! PROOFS. The decoder: the rows of the opcode table, command words and whole request frames (spec/30_encoding.md), and
the operand forms. -/

namespace Sys2Proof.Laws.Decoding
open Sys2Proof.Machine Sys2Proof.Safety
open Sys2Proof.Laws.Encoding (hex1_toNat)
open Sys2Proof.Laws.Receive (isLetter_iff)

/-! The rows of the opcode table (R86). -/

theorem row_build_letter {row : OpRow} (h : row ∈ opTable) (content : List Byte) :
    (row.build content).letter = row.pattern ∧ (row.build content).content = content := by
  revert row
  simp [opTable, Instr.letter, Instr.content]

/-- Every row's mask is 0xFF, so a row matches its own opcode alone. -/
theorem matchesRow_iff {row : OpRow} (h : row ∈ opTable) (b : Byte) : matchesRow b row = true ↔ b = row.pattern := by
  have hmask : row.mask = BitVec.allOnes 8 := by
    revert row
    decide
  rw [matchesRow, hmask, BitVec.and_allOnes, beq_iff_eq]

/-- R86, R87: the opcodes are the letters. -/
theorem isLetter_iff_row (b : Byte) : isLetter b = true ↔ ∃ row ∈ opTable, b = row.pattern := by
  revert b
  decide +kernel

theorem find?_row {b : Byte} {row : OpRow} (h : opTable.find? (matchesRow b) = some row) :
    isLetter b = true ∧ ∀ content, (row.build content).letter = b ∧ (row.build content).content = content := by
  have hmem : row ∈ opTable := List.mem_of_find?_eq_some h
  obtain rfl : b = row.pattern := (matchesRow_iff hmem b).1 (List.find?_some h)
  exact ⟨(isLetter_iff_row _).2 ⟨row, hmem, rfl⟩, row_build_letter hmem⟩

theorem find?_row_eq_none {b : Byte} : opTable.find? (matchesRow b) = none ↔ isLetter b = false := by
  rw [List.find?_eq_none, ← Bool.not_eq_true, isLetter_iff_row]
  constructor
  · rintro hnone ⟨row, hmem, hb⟩
    exact hnone row hmem ((matchesRow_iff hmem b).2 hb)
  · exact fun hno row hmem hb => hno ⟨row, hmem, (matchesRow_iff hmem b).1 hb⟩

/-! Command words (R86, R87). -/

theorem decode_of_isLetter {b : Byte} (hb : isLetter b = true) (content : List Byte) :
    ∃ i, decode (b :: content) = .ok i ∧ i.letter = b ∧ i.content = content := by
  cases hrow : opTable.find? (matchesRow b) with
  | none => simp [find?_row_eq_none.1 hrow] at hb
  | some row =>
    obtain ⟨-, hbuild⟩ := find?_row hrow
    exact ⟨row.build content, by simp [decode, hrow], hbuild content⟩

theorem decode_of_not_isLetter {b : Byte} (hb : isLetter b = false) (content : List Byte) :
    decode (b :: content) = .error (.notACommandLetter b) := by
  simp [decode, find?_row_eq_none.2 hb]

/-- What decodes is the word of the instruction read. -/
theorem eq_encodeWord_of_decode {bytes : List Byte} {i : Instr} (h : decode bytes = .ok i) : bytes = encodeWord i := by
  cases bytes with
  | nil => cases h
  | cons b content =>
    cases hb : isLetter b with
    | false => simp [decode_of_not_isLetter hb] at h
    | true =>
      obtain ⟨j, hj, hletter, hcontent⟩ := decode_of_isLetter hb content
      obtain rfl : j = i := by simpa [hj] using h
      rw [encodeWord, hletter, hcontent]

theorem decode_encodeWord (i : Instr) : decode (encodeWord i) = .ok i := by
  cases i with
  | p c => exact DecodeEncodeWord.p c
  | d c => exact DecodeEncodeWord.d c
  | r c => exact DecodeEncodeWord.r c
  | w c => exact DecodeEncodeWord.w c
  | nopA c => exact DecodeEncodeWord.nopA c
  | nopB c => exact DecodeEncodeWord.nopB c
  | nopC c => exact DecodeEncodeWord.nopC c
  | nopE c => exact DecodeEncodeWord.nopE c
  | nopF c => exact DecodeEncodeWord.nopF c
  | nopG c => exact DecodeEncodeWord.nopG c
  | nopH c => exact DecodeEncodeWord.nopH c
  | nopI c => exact DecodeEncodeWord.nopI c
  | nopJ c => exact DecodeEncodeWord.nopJ c
  | nopK c => exact DecodeEncodeWord.nopK c
  | nopL c => exact DecodeEncodeWord.nopL c
  | nopM c => exact DecodeEncodeWord.nopM c
  | nopN c => exact DecodeEncodeWord.nopN c
  | nopO c => exact DecodeEncodeWord.nopO c
  | nopQ c => exact DecodeEncodeWord.nopQ c
  | nopS c => exact DecodeEncodeWord.nopS c
  | nopT c => exact DecodeEncodeWord.nopT c
  | nopU c => exact DecodeEncodeWord.nopU c
  | nopV c => exact DecodeEncodeWord.nopV c
  | nopX c => exact DecodeEncodeWord.nopX c
  | nopY c => exact DecodeEncodeWord.nopY c
  | nopZ c => exact DecodeEncodeWord.nopZ c

/-- The row of an instruction's letter builds it from its content. -/
theorem find?_row_of_instr (i : Instr) :
    ∃ row, opTable.find? (matchesRow i.letter) = some row ∧ row.build i.content = i := by
  have hdecode := decode_encodeWord i
  rw [encodeWord, decode] at hdecode
  split at hdecode
  · cases hdecode
  · exact ⟨_, ‹_›, by simpa using hdecode⟩

/-- Settles O10, by the rows of the opcode table. -/
theorem exactlyTheLettersDecode : Obligations.ExactlyTheLettersDecode := by
  intro b content
  rw [← isLetter_iff, Bool.not_eq_true]
  exact ⟨fun hb => decode_of_isLetter hb content, fun hb => decode_of_not_isLetter hb content⟩

/-! Whole frames (R70, R143 to R146). -/

theorem carriable_nil : carriable [] = true := rfl

theorem carriable_cons (b : Byte) (content : List Byte) :
    carriable (b :: content) = true ↔ b ≠ soh ∧ b ≠ etx ∧ carriable content = true := by
  simp [carriable, and_assoc]

theorem carriable_append (as bs : List Byte) :
    carriable (as ++ bs) = true ↔ carriable as = true ∧ carriable bs = true := by
  simp only [carriable, List.all_append, Bool.and_eq_true]

/-- The content of a frame ends at its first ETX. -/
theorem splitAtEtx_eq_some_iff {bytes content digits : List Byte} :
    splitAtEtx bytes = some (content, digits) ↔ bytes = content ++ etx :: digits ∧ carriable content = true := by
  induction bytes generalizing content with
  | nil => simp [splitAtEtx]
  | cons b bs ih =>
    rw [splitAtEtx]
    by_cases hsoh : b = soh
    · rw [if_pos hsoh]
      cases content with
      | nil => simp [hsoh, soh, etx]
      | cons c content => grind [carriable_cons]
    by_cases hetx : b = etx
    · rw [if_neg hsoh, if_pos hetx]
      cases content with
      | nil => simp [hetx, carriable_nil]
      | cons c content => grind [carriable_cons]
    rw [if_neg hsoh, if_neg hetx]
    cases content with
    | nil => cases splitAtEtx bs <;> simp [hetx]
    | cons c content =>
      have hrest := @ih content
      cases hsplit : splitAtEtx bs with
      | none =>
        simp only [hsplit, reduceCtorEq, false_iff, not_and, Bool.not_eq_true] at hrest
        simp only [reduceCtorEq, List.cons_append, List.cons.injEq, carriable_cons, false_iff]
        rintro ⟨⟨-, hbs⟩, -, -, hcar⟩
        simp [hrest hbs] at hcar
      | some p =>
        obtain ⟨content', digits'⟩ := p
        simp only [hsplit, Option.some.injEq, Prod.mk.injEq] at hrest
        simp only [Option.some.injEq, Prod.mk.injEq, List.cons.injEq, List.cons_append, carriable_cons]
        grind

/-- A request frame is its header, its content, an ETX and the digits of its checksum. -/
theorem requestFrame_eq (v : CrcVariant) (addr : BitVec 5) (cmd : Byte) (content : List Byte) :
    requestFrame v addr cmd content
      = soh :: addrCh0 addr :: addrCh1 addr :: colon :: cmd :: stx :: (content ++ etx ::
          hex4 (crc16 v (frameBody (addrCh0 addr) (addrCh1 addr) cmd content))) := by
  simp [requestFrame, frame, frameBody]

/-- R70, R143 to R145: each test of the frame decoder, in its order, says what its bytes are. -/
theorem eq_requestFrame_of_decodeFrame {cfg : Config} {addr : BitVec 5} {bytes : List Byte} {i : Instr}
    (h : decodeFrame cfg addr bytes = .ok i) :
    ∃ content, bytes = requestFrame cfg.crc addr i.letter content ∧ carriable content = true
      ∧ 7 + content.length ≤ cfg.rawCap ∧ i.content = content.take cfg.contentCap := by
  unfold decodeFrame at h
  split at h
  swap
  · cases h
  rename_i b0 b1 b2 b3 b4 b5 rest
  split at h
  · cases h
  rename_i h0
  split at h
  · cases h
  rename_i h12
  split at h
  · cases h
  rename_i h3
  split at h
  · cases h
  rename_i row hrow
  split at h
  · cases h
  rename_i h5
  split at h
  · cases h
  rename_i content digits hsplit
  split at h
  · cases h
  rename_i hcap
  split at h
  swap
  · cases h
  rename_i hdigits
  cases h
  obtain ⟨-, hbuild⟩ := find?_row hrow
  obtain ⟨hletter, hcontent⟩ := hbuild (content.take cfg.contentCap)
  obtain ⟨rfl, hcar⟩ := splitAtEtx_eq_some_iff.1 hsplit
  obtain ⟨rfl, rfl⟩ := by simpa only [ne_eq, not_or, not_not] using h12
  refine ⟨content, ?_, hcar, not_lt.1 hcap, hcontent⟩
  rw [requestFrame_eq, hletter, ← hdigits, not_not.1 h0, not_not.1 h3, not_not.1 h5]

/-- R146: a request frame passes every test of the frame decoder. -/
theorem decodeFrame_requestFrame {cfg : Config} {i : Instr} {content : List Byte} (addr : BitVec 5)
    (hcar : carriable content = true) (hcap : 7 + content.length ≤ cfg.rawCap)
    (hcontent : i.content = content.take cfg.contentCap) :
    decodeFrame cfg addr (requestFrame cfg.crc addr i.letter content) = .ok i := by
  obtain ⟨row, hrow, hbuild⟩ := find?_row_of_instr i
  rw [requestFrame_eq]
  simp [decodeFrame, hrow, splitAtEtx_eq_some_iff.2 ⟨rfl, hcar⟩, not_lt.2 hcap, ← hcontent, hbuild]

theorem carriable_of_wellFormed {cfg : Config} {i : Instr} (h : wellFormed cfg i = true) :
    carriable i.content = true ∧ i.content.length ≤ cfg.contentCap ∧ 7 + i.content.length ≤ cfg.rawCap := by
  simp only [wellFormed, noSohInContent, noEtxInContent, fitsContentBuffer, fitsRawBuffer, Bool.and_eq_true,
    Bool.not_eq_true', List.contains_eq_mem, decide_eq_false_iff_not, decide_eq_true_eq] at h
  obtain ⟨⟨⟨hsoh, hetx⟩, hfits⟩, hraw⟩ := h
  refine ⟨List.all_eq_true.2 fun b hb => ?_, hfits, hraw⟩
  have hbsoh : b ≠ soh := ne_of_mem_of_not_mem hb hsoh
  have hbetx : b ≠ etx := ne_of_mem_of_not_mem hb hetx
  simp [hbsoh, hbetx]

/-- Settles O11: a well-formed instruction's content is carried whole. -/
theorem frameDecodesToTheInstructionEncoded : Obligations.FrameDecodesToTheInstructionEncoded := by
  intro cfg addr i hwf
  obtain ⟨hcar, hfits, hraw⟩ := carriable_of_wellFormed hwf
  exact decodeFrame_requestFrame addr hcar hraw (List.take_of_length_le hfits).symm

/-- Settles O9: each word, and the frame of V3, is that of its instruction. -/
theorem writtenOutWordsDecode : Obligations.WrittenOutWordsDecode := by
  refine ⟨decode_encodeWord (.p _), decode_encodeWord (.d _), decode_encodeWord (.r _), decode_encodeWord (.w _),
    decode_encodeWord (.nopX _), ?_⟩
  have hV3 : encode testConfig 7 (.d [0x30]) = Tests.requestV3 := Tests.test_request_V3
  have hread := frameDecodesToTheInstructionEncoded testConfig 7 (.d [0x30]) (by decide)
  rwa [hV3] at hread

/-- Settles O12, by inversion of the frame decoder. -/
theorem onlyRequestFramesDecode : Obligations.OnlyRequestFramesDecode :=
  fun _ _ _ _ h => eq_requestFrame_of_decodeFrame h

/-! The operand forms (R81). -/

/-- R81: `split1` cuts at the first colon. -/
theorem split1_eq_some_iff {c before after : List Byte} :
    split1 c = some (before, after) ↔ c = before ++ colon :: after ∧ colon ∉ before := by
  induction c generalizing before with
  | nil => simp [split1]
  | cons b bs ih =>
    rw [split1]
    by_cases hb : b = colon
    · rw [if_pos hb]
      cases before with
      | nil => simp [hb]
      | cons d before => grind
    rw [if_neg hb]
    cases before with
    | nil => cases split1 bs <;> simp [hb]
    | cons d before =>
      have hrest := @ih before
      cases hsplit : split1 bs with
      | none =>
        simp only [hsplit, reduceCtorEq, false_iff] at hrest
        grind
      | some p => grind

theorem operandR_eq_some_iff {cfg : Config} {c : List Byte} {channel port : Nat} :
    operandR cfg c = some (channel, port) ↔ ∃ a b, c = a ++ colon :: b ∧ colon ∉ a ∧ colon ∉ b
      ∧ parseNum cfg.numMax a = some channel ∧ parseNum cfg.numMax b = some port := by
  constructor
  · intro h
    unfold operandR at h
    split at h
    · cases h
    rename_i a b hsplit
    obtain ⟨hc, ha⟩ := split1_eq_some_iff.1 hsplit
    split at h
    · cases h
    rename_i hb
    split at h
    · rename_i hchannel hport
      cases h
      exact ⟨a, b, hc, ha, by simpa using hb, hchannel, hport⟩
    · cases h
  · rintro ⟨a, b, hc, ha, hb, hchannel, hport⟩
    simp [operandR, split1_eq_some_iff.2 ⟨hc, ha⟩, hb, hchannel, hport]

theorem operandW_eq_some_iff {cfg : Config} {c value : List Byte} {channel port : Nat} :
    operandW cfg c = some (channel, port, value) ↔
      ∃ a b, c = a ++ colon :: (b ++ colon :: value) ∧ colon ∉ a ∧ colon ∉ b
        ∧ parseNum cfg.numMax a = some channel ∧ parseNum cfg.numMax b = some port := by
  constructor
  · intro h
    unfold operandW at h
    split at h
    · cases h
    rename_i a rest hsplit
    obtain ⟨hc, ha⟩ := split1_eq_some_iff.1 hsplit
    split at h
    · cases h
    rename_i b value' hsplit'
    obtain ⟨rfl, hb⟩ := split1_eq_some_iff.1 hsplit'
    split at h
    · rename_i hchannel hport
      cases h
      exact ⟨a, b, hc, ha, hb, hchannel, hport⟩
    · cases h
  · rintro ⟨a, b, hc, ha, hb, hchannel, hport⟩
    simp [operandW, split1_eq_some_iff.2 ⟨hc, ha⟩, split1_eq_some_iff.2 ⟨rfl, hb⟩, hchannel, hport]

/-- Settles O7: the splits are at the first colons. -/
theorem operandFormsFollowTheGrammar : Obligations.OperandFormsFollowTheGrammar :=
  fun _ _ _ _ _ => ⟨Iff.rfl, operandR_eq_some_iff, operandW_eq_some_iff⟩

end Sys2Proof.Laws.Decoding

/-! PROOFS. The engine (spec/10_state.md, 60_exceptions.md), reset (70_reset_and_hazards.md) and the tick scheduler. -/

namespace Sys2Proof.Laws.Engine
open Sys2Proof.Machine Sys2Proof.Safety

/-! One step, by the first event of the list. -/

section
variable {s : State} {i : Inputs} {rest : List Event}

theorem step_of_nil (h : s.inputs = []) : step s = quietStep s := by
  simp [step, engine, h]

theorem step_of_tick (h : s.inputs = .tick :: rest) : step s = .next (schedulerTick (facing s rest)) := by
  simp [step, engine, h, facing]

theorem step_of_instant (h : s.inputs = .instant i :: rest) : step s = instantStep i (facing s rest) := by
  simp [step, engine, h, facing]

/-- R261. -/
theorem step_of_rst (h : s.inputs = .instant i :: rest) (hi : i.rst = true) :
    step s = .next (resetAssert (facing s rest)) := by
  simp [step_of_instant h, instantStep, hi]

/-- R262. -/
theorem step_of_release (h : s.inputs = .instant i :: rest) (hi : i.rst = false) (hs : s.rst = true) :
    step s = resetRelease i (facing s rest) := by
  have hs' : (facing s rest).rst = _ := hs
  simp [step_of_instant h, instantStep, hi, hs']

/-- R239. -/
theorem step_of_meets (hm : Meets s i rest) : step s = engineStep i (facing s rest) := by
  obtain ⟨h, hi, hs⟩ := hm
  have hs' : (facing s rest).rst = _ := hs
  simp [step_of_instant h, instantStep, hi, hs']

end

/-- Settles O43: the dispatch step runs with and without an event. -/
theorem stepRunsTheDecodedInstruction : Obligations.StepRunsTheDecodedInstruction := by
  intro s s' bytes i hp hs hpop hf hd
  have hdispatch : step s = dispatch s' := by
    obtain ⟨hnil, rfl⟩ | ⟨j, rest, hin, hj, rfl⟩ := hpop
    · simp [step_of_nil hnil, quietStep, hs, hp]
    · rw [step_of_meets ⟨hin, hj, hs⟩, engineStep, facing, hp]
  simp [hdispatch, dispatch, hf, hd]

/-! The awaited events (R239). -/

section
variable {s : State} {i j : Inputs}

theorem transmit_congr (hp : s.phase = .tx) (h : AgreeOnAwaited s i j) : transmit i s = transmit j s := by
  unfold AgreeOnAwaited at h
  rw [hp] at h
  unfold transmit
  cases hx : s.txState <;> rw [hx] at h <;> simp_all

theorem capabilityAnswer_congr (hp : s.phase = .capWait) (h : AgreeOnAwaited s i j) :
    capabilityAnswer i s = capabilityAnswer j s := by
  unfold AgreeOnAwaited at h
  rw [hp] at h
  obtain ⟨hvalid, hcontent⟩ := h
  simp [capabilityAnswer, readAnswer, writeAnswer, hvalid, hcontent]

theorem receiveStep_congr (hp : s.phase = .rx) (h : AgreeOnAwaited s i j) : receiveStep i s = receiveStep j s := by
  unfold AgreeOnAwaited at h
  rw [hp] at h
  obtain ⟨hvalid, hdata, hferr⟩ := h
  rw [receiveStep, receiveStep, hvalid, hdata, hferr]

theorem engineStep_congr (h : AgreeOnAwaited s i j) : engineStep i s = engineStep j s := by
  unfold engineStep
  cases hp : s.phase with
  | rx => exact congrArg toOutcome (receiveStep_congr hp h)
  | dispatch => rfl
  | capWait => exact congrArg toOutcome (capabilityAnswer_congr hp h)
  | tx => exact congrArg toOutcome (transmit_congr hp h)

end

/-- Settles O44, one phase at a time. -/
theorem onlyTheAwaitedEventMatters : Obligations.OnlyTheAwaitedEventMatters := by
  intro s i j rest hs hi hj h
  have hstep : ∀ k : Inputs, k.rst = false → step (facing s (.instant k :: rest)) = engineStep k (facing s rest) :=
    fun k hk => step_of_meets ⟨rfl, hk, hs⟩
  have hsame : engineStep i (facing s rest) = engineStep j (facing s rest) := engineStep_congr (s := facing s rest) h
  exact (hstep i hi).trans (hsame.trans (hstep j hj).symm)

/-- Settles O45, one wait at a time. -/
theorem engineHoldsWithoutItsEvent : Obligations.EngineHoldsWithoutItsEvent := by
  intro s i rest hm hwait
  rw [step_of_meets hm]
  obtain ⟨hp, hv⟩ | ⟨hp, hv⟩ | ⟨hp, hx, hv⟩ | ⟨hp, hx, hv⟩ | ⟨hp, hx, hv⟩ | ⟨hp, hx, hv⟩ := hwait
  · simp [engineStep, facing, hp, receiveStep, hv, toOutcome]
  · simp [engineStep, facing, hp, capabilityAnswer, hv, toOutcome]
  all_goals simp [engineStep, facing, hp, transmit, hx, hv, toOutcome]

/-! Reset (R261, R262, R266). -/

/-- Settles O46, by the reset values. -/
theorem resetAlwaysTakesEffect : Obligations.ResetAlwaysTakesEffect := by
  intro s i rest hin hi
  refine ⟨_, step_of_rst hin hi, ?_⟩
  simp [facing, State.rxReady, State.txValid, State.deOut, State.capReqValid]

theorem sampleStraps_eq (i : Inputs) (s : State) :
    sampleStraps i s = { s with devAddr := (sampleStraps i s).devAddr, draws := (sampleStraps i s).draws } := by
  unfold sampleStraps
  split <;> rfl

theorem sampleStraps_settled {i : Inputs} (h : i.strapsSettled = true) (s : State) :
    (sampleStraps i s).devAddr = ~~~i.addrStrapN := by
  rw [sampleStraps, if_pos h]

/-- Settles O47, by the sampling of the straps. -/
theorem releaseSamplesTheAddress : Obligations.ReleaseSamplesTheAddress := by
  intro s i rest hin hi hs hc
  refine ⟨{ sampleStraps i (facing s rest) with rst := false }, ?_, rfl, fun h => sampleStraps_settled h _, ?_⟩
  · rw [step_of_release hin hi hs]
    exact if_pos hc
  · rw [sampleStraps_eq]
    rfl

/-- Settles O48, by the check at release. -/
theorem illFormedConfigurationIsRefused : Obligations.IllFormedConfigurationIsRefused := by
  intro s i rest hin hi hs hc
  simp [step_of_release hin hi hs, resetRelease, facing, hc]

/-- Settles O51, by the fields of the reset state. -/
theorem resetStateIsTheSpecs : Obligations.ResetStateIsTheSpecs :=
  ⟨rfl, rfl, rfl, rfl, rfl, rfl, rfl, rfl, rfl, rfl, rfl, rfl, rfl, rfl, rfl⟩

/-! The tick scheduler (R246). -/

/-- A firing with reset not held. -/
theorem schedulerTick_of_not_rst {s : State} (h : s.rst = false) :
    schedulerTick s = { s with
      tickCounter := (s.tickCounter + 1) % s.cfg.ticksPerSecond
      uptimeSeconds :=
        if (s.tickCounter + 1) % s.cfg.ticksPerSecond = 0 then (s.uptimeSeconds + 1) % 2 ^ s.cfg.uptimeW
        else s.uptimeSeconds
      earlierUptimes := recordUptime s } := by
  simp [schedulerTick, h]

/-- Settles O50, by one firing. -/
theorem tickChangesOnlyTheScheduler : Obligations.TickChangesOnlyTheScheduler := by
  intro s rest hin hs
  have hs' : (facing s rest).rst = false := hs
  rw [step_of_tick hin, schedulerTick_of_not_rst hs']
  rfl

/-- A firing changes nothing but the scheduler's counters and its record of uptimes. -/
theorem schedulerTick_frame (s : State) :
    schedulerTick s = { s with tickCounter := (schedulerTick s).tickCounter
                               uptimeSeconds := (schedulerTick s).uptimeSeconds
                               earlierUptimes := (schedulerTick s).earlierUptimes } := by
  unfold schedulerTick
  split <;> rfl

/-! Runs: the events of a list one after the other. -/

/-- A run takes its first event and goes on from the state that the step answers. -/
theorem runEvents_cons {s t : State} {e : Event} {es : List Event}
    (h : step (facing s (e :: es)) = .next (facing t es)) : runEvents s (e :: es) = runEvents t es := by
  have hcore : Sys2Proof.core.step (facing s (e :: es)) = .next (facing t es) := h
  simp only [runEvents, List.length_cons, Host.Core.run, hcore]
  rfl

theorem runEvents_nil (s : State) : runEvents s [] = .next (facing s []) := rfl

theorem schedulerTick_facing (s : State) (es : List Event) :
    schedulerTick (facing s es) = facing (schedulerTick s) es := by
  cases hs : s.rst <;> simp [schedulerTick, facing, recordUptime, hs]

theorem runEvents_tick (s : State) (es : List Event) : runEvents s (.tick :: es) = runEvents (schedulerTick s) es := by
  exact runEvents_cons ((step_of_tick rfl).trans (congrArg _ (schedulerTick_facing s es)))

theorem runEvents_replicate_tick (n : Nat) (s : State) :
    runEvents s (List.replicate n .tick) = .next (facing (schedulerTick^[n] s) []) := by
  induction n generalizing s with
  | zero => rfl
  | succ n ih => rw [List.replicate_succ, runEvents_tick, ih, Function.iterate_succ_apply]

/-- `n` firings, no more than a cycle of the counter, from a place `c` in it: the uptime grows when the cycle wraps. -/
theorem iterate_schedulerTick {s : State} (hs : s.rst = false) (hc : s.tickCounter < s.cfg.ticksPerSecond) {n : Nat}
    (hn : n ≤ s.cfg.ticksPerSecond) :
    ∃ uptimes, schedulerTick^[n] s = { s with
      tickCounter := (s.tickCounter + n) % s.cfg.ticksPerSecond
      uptimeSeconds :=
        if s.tickCounter + n < s.cfg.ticksPerSecond then s.uptimeSeconds else (s.uptimeSeconds + 1) % 2 ^ s.cfg.uptimeW
      earlierUptimes := uptimes } := by
  induction n with
  | zero => exact ⟨s.earlierUptimes, by simp [Nat.mod_eq_of_lt hc, hc]⟩
  | succ n ih =>
    obtain ⟨uptimes, hiter⟩ := ih (by omega)
    have hcount : ((s.tickCounter + n) % s.cfg.ticksPerSecond + 1) % s.cfg.ticksPerSecond
        = (s.tickCounter + (n + 1)) % s.cfg.ticksPerSecond := by rw [Nat.mod_add_mod, Nat.add_assoc]
    have hwrap : (s.tickCounter + (n + 1)) % s.cfg.ticksPerSecond = 0
        ↔ s.tickCounter + (n + 1) = s.cfg.ticksPerSecond := by
      constructor
      · intro h
        obtain ⟨k, hk⟩ := Nat.dvd_of_mod_eq_zero h
        obtain rfl : k = 1 := by nlinarith
        omega
      · intro h
        rw [h, Nat.mod_self]
    rw [Function.iterate_succ_apply', hiter, schedulerTick_of_not_rst (by exact hs)]
    have huptime : (if s.tickCounter + (n + 1) = s.cfg.ticksPerSecond then
          ((if s.tickCounter + n < s.cfg.ticksPerSecond then s.uptimeSeconds
            else (s.uptimeSeconds + 1) % 2 ^ s.cfg.uptimeW) + 1) % 2 ^ s.cfg.uptimeW
        else if s.tickCounter + n < s.cfg.ticksPerSecond then s.uptimeSeconds
        else (s.uptimeSeconds + 1) % 2 ^ s.cfg.uptimeW)
        = if s.tickCounter + (n + 1) < s.cfg.ticksPerSecond then s.uptimeSeconds
          else (s.uptimeSeconds + 1) % 2 ^ s.cfg.uptimeW := by grind
    simp only [hcount, hwrap, huptime]
    exact ⟨_, rfl⟩

/-- Settles O49: a whole cycle of the counter wraps exactly once. -/
theorem uptimeGrowsOncePerCycle : Obligations.UptimeGrowsOncePerCycle := by
  intro s hs hc
  obtain ⟨uptimes, hiter⟩ := iterate_schedulerTick hs hc le_rfl
  refine ⟨_, runEvents_replicate_tick _ s, ?_⟩
  rw [hiter]
  simp [facing, Nat.mod_eq_of_lt hc]

/-! What no step changes (R36, R46). -/

/-- The parameters, the address and the level of `rst` are the same. -/
def SameSetup (s t : State) : Prop := t.cfg = s.cfg ∧ t.devAddr = s.devAddr ∧ t.rst = s.rst

theorem rxStep_sameSetup {s t : State} {b : Byte} {ferr : Bool} (h : RxStep s b ferr t) : SameSetup s t := by
  cases h <;> exact ⟨rfl, rfl, rfl⟩

theorem respond_sameSetup {k : List Byte} {s t : State} (h : respond k s = .ok t) : SameSetup s t := by
  obtain ⟨-, -, rfl⟩ := respond_ok.1 h
  exact ⟨rfl, rfl, rfl⟩

theorem exec_sameSetup {i : Instr} {s t : State} (h : exec i s = .next t) : SameSetup s t := by
  obtain ⟨k, n, hresp⟩ | ⟨c, channel, port, d, -, -, -, -, rfl⟩
    | ⟨c, channel, port, value, d, -, -, -, -, -, rfl⟩ | rfl := exec_cases h
  · exact (respond_sameSetup hresp :)
  all_goals exact ⟨rfl, rfl, rfl⟩

theorem capabilityAnswer_sameSetup {i : Inputs} {s t : State} (h : capabilityAnswer i s = .ok t) : SameSetup s t := by
  obtain rfl | ⟨-, -, hresp⟩ | ⟨-, -, hresp⟩ := capabilityAnswer_cases h
  · exact ⟨rfl, rfl, rfl⟩
  all_goals exact (respond_sameSetup hresp :)

theorem transmit_sameSetup {i : Inputs} {s t : State} (h : transmit i s = .ok t) : SameSetup s t := by
  obtain rfl | ⟨-, rfl⟩ | ⟨-, htake⟩ | ⟨-, rfl⟩ | ⟨-, rfl⟩ := transmit_cases h
  case inr.inr.inl =>
    obtain ⟨b, -, -, rfl⟩ := txTakeByte_ok.1 htake
    exact ⟨rfl, rfl, rfl⟩
  all_goals exact ⟨rfl, rfl, rfl⟩

/-- A step keeps the parameters, and the address too unless it releases reset. -/
theorem step_keeps_setup {s t : State} (h : step s = .next t) :
    t.cfg = s.cfg ∧ (t.devAddr = s.devAddr ∨ (s.rst = true ∧ t.rst = false)) := by
  have of_same : ∀ {t}, SameSetup s.popped t →
      t.cfg = s.cfg ∧ (t.devAddr = s.devAddr ∨ (s.rst = true ∧ t.rst = false)) :=
    fun ⟨hcfg, haddr, _⟩ => ⟨hcfg, .inl haddr⟩
  cases step_cases h with
  | hold => exact ⟨rfl, .inl rfl⟩
  | tick _ => rw [schedulerTick_frame]; exact ⟨rfl, .inl rfl⟩
  | reset i _ _ => exact ⟨rfl, .inl rfl⟩
  | release i _ _ hr _ => rw [sampleStraps_eq]; exact ⟨rfl, .inr ⟨hr, rfl⟩⟩
  | receive i t _ _ _ _ _ hrx => exact of_same (rxStep_sameSetup hrx)
  | dispatch bytes i t _ _ _ _ hexec => exact of_same (exec_sameSetup hexec)
  | answer i t _ _ _ _ hans => exact of_same (capabilityAnswer_sameSetup hans)
  | transmit i t _ _ _ _ htx => exact of_same (transmit_sameSetup htx)

/-- Settles O55, by the cases of a step. -/
theorem stepKeepsTheConfiguration : Obligations.StepKeepsTheConfiguration :=
  fun _ _ h => (step_keeps_setup h).1

/-- Settles O56, by the cases of a step. -/
theorem addressChangesOnlyAtRelease : Obligations.AddressChangesOnlyAtRelease :=
  fun _ _ h hne => (step_keeps_setup h).2.resolve_left hne

/-! Capability requests (R172, R47) and the remaining commands. -/

/-- Settles O33, by the cases of a command. -/
theorem atMostOneRequestPerCommand : Obligations.AtMostOneRequestPerCommand := by
  intro i s t h
  obtain ⟨k, n, hresp⟩ | ⟨c, channel, port, d, rfl, -, hd, hport, rfl⟩
    | ⟨c, channel, port, value, d, rfl, -, hd, ha, hport, rfl⟩ | rfl := exec_cases h
  · obtain ⟨-, -, rfl⟩ := respond_ok.1 hresp
    exact .inl ⟨rfl, by simp⟩
  · exact .inr (.inl ⟨rfl, rfl, rfl, ⟨d, hd, hport⟩, rfl⟩)
  · exact .inr (.inr ⟨rfl, rfl, rfl, ⟨d, hd, hport, ha⟩, rfl⟩)
  · exact .inl ⟨rfl, by simp⟩

theorem dec_length_mono {m n : Nat} (h : m ≤ n) : (dec m).length ≤ (dec n).length := by
  obtain rfl | hpos := m.eq_zero_or_pos
  · exact List.length_pos_iff.2 (Encoding.isDecimal_dec n).1
  · rw [Encoding.dec_eq_digits hpos, Encoding.dec_eq_digits (hpos.trans_le h)]
    simpa using Nat.le_length_digits_le 10 m n h

/-- R45: a well-formed configuration leaves room for every uptime of `UPTIME_W` bits. -/
theorem pingContent_fits {cfg : Config} (hc : configOk cfg = true) (u : Nat) :
    (pingContent cfg (u % 2 ^ cfg.uptimeW)).length ≤ cfg.respContentCap := by
  have hlongest : (pingContent cfg (2 ^ cfg.uptimeW - 1)).length ≤ cfg.respContentCap := by
    simp only [configOk, Bool.and_eq_true, decide_eq_true_eq] at hc
    tauto
  have hlt : u % 2 ^ cfg.uptimeW < 2 ^ cfg.uptimeW := Nat.mod_lt _ (Nat.two_pow_pos _)
  have hdec := dec_length_mono (Nat.le_sub_one_of_lt hlt)
  simp only [pingContent, List.length_append] at hlongest ⊢
  omega

/-- Settles O28: the snapshot is of an uptime held, and draws at most a free value. -/
theorem pingAnswersWithTheUptime : Obligations.PingAnswersWithTheUptime := by
  intro s c hp hc
  obtain ⟨u, hu, hsnap⟩ := s.snapshotUptime_held
  have hexec : exec (.p c) s = toOutcome (respond (pingContent s.cfg (u % 2 ^ s.cfg.uptimeW)) s.afterSnapshot) := by
    rw [← hsnap]
    rfl
  obtain ⟨t, ht, hresp⟩ := Commands.answers_of_fits hexec (by simpa using pingContent_fits hc u) (by simp [hp])
  have hdraws : t.draws = s.afterSnapshot.draws := by
    obtain ⟨-, hok⟩ := respond_ok.1 (toOutcome_next.1 (hexec.symm.trans ht))
    rw [hok.2]
    rfl
  refine ⟨t, ht, u, hu, ?_⟩
  rw [hdraws, ← State.afterSnapshot_eq]
  exact hresp

/-- Settles O36, by the fault of `respond`. -/
theorem overlongReadAnswerFaults : Obligations.OverlongReadAnswerFaults := by
  intro s i rest hp hk hm hv hlong
  have hanswer : capabilityAnswer i { s with inputs := rest }
      = respond i.capRspContent { s with inputs := rest, capKind := .none } := Commands.capabilityAnswer_read hv hk
  rw [Commands.step_of_capWait hm hp, hanswer, toOutcome_fault]
  exact respond_error.2 (.inl ⟨hlong, rfl⟩)

end Sys2Proof.Laws.Engine

/-! PROOFS. The CRC-16 unit (spec/40_crc.md). -/

namespace Sys2Proof.Laws.Crc
open Sys2Proof.Machine Sys2Proof.Safety

/-- Settles O1, by running the unit. -/
theorem crcCheckValues : Obligations.CrcCheckValues := by
  unfold Obligations.CrcCheckValues
  decide +kernel

/-! The byte-serial form of CRC-16/ARC is the mirror image of the parameterised form (R102). -/

theorem reverse_xor {w : Nat} (x y : BitVec w) : (x ^^^ y).reverse = x.reverse ^^^ y.reverse := by
  ext i hi
  simp [BitVec.getElem_reverse, BitVec.getMsbD_xor]

theorem reverse_shiftLeft_one (c : BitVec 16) : (c <<< 1).reverse = c.reverse >>> 1 := by
  ext i hi
  simp [BitVec.getElem_reverse, BitVec.getMsbD_shiftLeft, BitVec.getLsbD_reverse, Nat.add_comm]

/-- A byte at the high end of the register is its mirror image at the low end. -/
theorem reverse_highByte (b : Byte) : ((b.reverse.setWidth 16) <<< 8).reverse = b.setWidth 16 := by
  revert b
  decide +kernel

theorem crcShiftRight_reverse (c : BitVec 16) : crcShiftRight c.reverse = (crcShift 0x8005 c).reverse := by
  have hpoly : (0x8005#16).reverse = 0xA001#16 := by decide
  have hbit : c.reverse.getLsbD 0 = c.msb := by
    rw [BitVec.getLsbD_reverse, BitVec.msb_eq_getMsbD_zero]
  unfold crcShiftRight crcShift
  rw [hbit]
  split
  · rw [reverse_xor, reverse_shiftLeft_one, ← hpoly]
    rfl
  · rw [reverse_shiftLeft_one]

theorem crcShiftRightTimes_reverse (n : Nat) (c : BitVec 16) :
    crcShiftRightTimes n c.reverse = (crcShiftTimes 0x8005 n c).reverse := by
  induction n generalizing c with
  | zero => rfl
  | succ n ih => rw [crcShiftRightTimes, crcShiftTimes, crcShiftRight_reverse, ih]

theorem crcUpdate_reverse (c : BitVec 16) (b : Byte) : crcUpdate c.reverse b = (crcByte crc16Arc c b).reverse := by
  have hin : c.reverse ^^^ b.setWidth 16 = (c ^^^ b.reverse.setWidth 16 <<< 8).reverse := by
    rw [reverse_xor, reverse_highByte]
  rw [crcUpdate, hin, crcShiftRightTimes_reverse]
  rfl

theorem foldl_crcUpdate_reverse (bytes : List Byte) (c : BitVec 16) :
    bytes.foldl crcUpdate c.reverse = (bytes.foldl (crcByte crc16Arc) c).reverse := by
  induction bytes generalizing c with
  | nil => rfl
  | cons b bytes ih => rw [List.foldl_cons, List.foldl_cons, crcUpdate_reverse, ih]

/-- Settles O2, by the mirror image of each byte's turn. -/
theorem crcBytewiseFormAgreesForArc : Obligations.CrcBytewiseFormAgreesForArc := by
  intro bytes
  have hout : crc16 crc16Arc bytes = (bytes.foldl (crcByte crc16Arc) 0#16).reverse := by
    simp [crc16, crc16Arc]
  rw [hout, ← foldl_crcUpdate_reverse]
  rfl

/-! With a nonzero constant term every stage is injective (R108). -/

theorem reverse_injective {w : Nat} : Function.Injective (BitVec.reverse : BitVec w → BitVec w) :=
  fun x y h => by rw [← BitVec.reverse_reverse_eq (x := x), h, BitVec.reverse_reverse_eq]

theorem msb_eq_of_crcShift_eq {poly c d : BitVec 16} (hpoly : poly.getLsbD 0 = true)
    (h : crcShift poly c = crcShift poly d) : c.msb = d.msb := by
  have hbit : ∀ x, (crcShift poly x).getLsbD 0 = x.msb := by
    intro x
    unfold crcShift
    cases hx : x.msb <;> simp [hpoly]
  rw [← hbit c, h, hbit]

theorem crcShift_injective {poly : BitVec 16} (hpoly : poly.getLsbD 0 = true) :
    Function.Injective (crcShift poly) := by
  intro c d h
  have hmsb : c.msb = d.msb := msb_eq_of_crcShift_eq hpoly h
  have hshift : c <<< 1 = d <<< 1 := by
    unfold crcShift at h
    rw [hmsb] at h
    split at h
    · exact BitVec.xor_left_inj _ |>.1 h
    · exact h
  have hnat : 2 * c.toNat % 65536 = 2 * d.toNat % 65536 := by
    simpa [BitVec.toNat_shiftLeft, Nat.shiftLeft_eq, Nat.mul_comm] using congrArg BitVec.toNat hshift
  have htop : 32768 ≤ c.toNat ↔ 32768 ≤ d.toNat := by
    simpa [BitVec.msb_eq_decide] using hmsb
  exact BitVec.eq_of_toNat_eq (by omega)

theorem crcShiftTimes_injective {poly : BitVec 16} (hpoly : poly.getLsbD 0 = true) (n : Nat) :
    Function.Injective (crcShiftTimes poly n) := by
  induction n with
  | zero => exact Function.injective_id
  | succ n ih => exact ih.comp (crcShift_injective hpoly)

theorem crcByte_injective_register {v : CrcVariant} (hpoly : v.poly.getLsbD 0 = true) (b : Byte) :
    Function.Injective (fun c => crcByte v c b) := by
  intro c d h
  simpa using crcShiftTimes_injective hpoly 8 h

theorem highByte_injective : Function.Injective fun b : Byte => b.setWidth 16 <<< 8 := by
  intro b b' h
  have h := congrArg BitVec.toNat h
  bv_omega

theorem crcByte_injective_byte {v : CrcVariant} (hpoly : v.poly.getLsbD 0 = true) (c : BitVec 16) :
    Function.Injective (crcByte v c) := by
  intro b b' h
  have hhigh := highByte_injective (by simpa using crcShiftTimes_injective hpoly 8 h)
  cases hrefl : v.refIn
  · simpa [hrefl] using hhigh
  · exact reverse_injective (by simpa [hrefl] using hhigh)

theorem foldl_crcByte_injective {v : CrcVariant} (hpoly : v.poly.getLsbD 0 = true) (bytes : List Byte) :
    Function.Injective (fun c => bytes.foldl (crcByte v) c) := by
  induction bytes with
  | nil => exact Function.injective_id
  | cons b bytes ih => exact ih.comp (crcByte_injective_register hpoly b)

/-- Settles O3: the byte that changes, every byte behind it and the output stage are each injective. -/
theorem crcDetectsAnyOneByteChange : Obligations.CrcDetectsAnyOneByteChange := by
  intro v before after b b' hpoly hne heq
  have hregister : (before ++ b :: after).foldl (crcByte v) v.init
      = (before ++ b' :: after).foldl (crcByte v) v.init := by
    unfold crc16 at heq
    have heq := (BitVec.xor_left_inj _).1 heq
    cases hrefl : v.refOut
    · simpa [hrefl] using heq
    · exact reverse_injective (by simpa [hrefl] using heq)
  rw [List.foldl_append, List.foldl_append, List.foldl_cons, List.foldl_cons] at hregister
  exact hne (crcByte_injective_byte hpoly _ (foldl_crcByte_injective hpoly after hregister))

end Sys2Proof.Laws.Crc

/-! PROOFS. The invariant, check by check (spec/10_state.md sections 2 to 5, 20_memory.md section 1). -/

namespace Sys2Proof.Laws.Invariant
open Sys2Proof.Machine Sys2Proof.Safety

/-- The invariant, with a name for each of its checks. -/
structure Inv (s : State) : Prop where
  config   : configOk s.cfg = true
  memory   : memoryOk s = true
  ranges   : rangesOk s = true
  session  : sessionOk s = true
  latch    : latchOk s = true
  request  : requestOk s = true
  transmit : transmitOk s = true
  held     : resetHeldOk s = true

theorem invariant_iff {s : State} : invariant s = true ↔ Inv s := by
  simp only [invariant, Bool.and_eq_true]
  constructor
  · rintro ⟨⟨⟨⟨⟨⟨⟨hconfig, hmemory⟩, hranges⟩, hsession⟩, hlatch⟩, hrequest⟩, htransmit⟩, hheld⟩
    exact ⟨hconfig, hmemory, hranges, hsession, hlatch, hrequest, htransmit, hheld⟩
  · rintro ⟨hconfig, hmemory, hranges, hsession, hlatch, hrequest, htransmit, hheld⟩
    exact ⟨⟨⟨⟨⟨⟨⟨hconfig, hmemory⟩, hranges⟩, hsession⟩, hlatch⟩, hrequest⟩, htransmit⟩, hheld⟩

/-! The configuration (R9, R45). -/

theorem parameters_of_configOk {cfg : Config} (h : configOk cfg = true) :
    7 ≤ cfg.rawCap ∧ 18 ≤ cfg.respContentCap ∧ 1 ≤ cfg.ticksPerSecond := by
  simp only [configOk, parametersOk, Bool.and_eq_true, decide_eq_true_eq] at h
  tauto

/-! The counts (R25, R26, R29, R31, R246). -/

/-- `rangesOk`, with a name for each count. -/
structure Ranges (s : State) : Prop where
  rawLen         : s.rawLen ≤ s.cfg.rawCap
  contentLen     : s.contentLen ≤ s.cfg.contentCap
  dlen           : s.dlen ≤ s.cfg.contentCap
  txLen          : s.txLen ≤ 11 + s.cfg.respContentCap
  txIdx          : s.txIdx ≤ s.txLen
  tickCounter    : s.tickCounter < s.cfg.ticksPerSecond
  uptimeSeconds  : s.uptimeSeconds < 2 ^ s.cfg.uptimeW
  earlierUptimes : ∀ u ∈ s.earlierUptimes, u < 2 ^ s.cfg.uptimeW

theorem rangesOk_iff {s : State} : rangesOk s = true ↔ Ranges s := by
  simp only [rangesOk, Bool.and_eq_true, decide_eq_true_eq, List.all_eq_true]
  constructor
  · rintro ⟨⟨⟨⟨⟨⟨⟨hraw, hcontent⟩, hdlen⟩, htx⟩, hidx⟩, htick⟩, hup⟩, hearlier⟩
    exact ⟨hraw, hcontent, hdlen, htx, hidx, htick, hup, hearlier⟩
  · rintro ⟨hraw, hcontent, hdlen, htx, hidx, htick, hup, hearlier⟩
    exact ⟨⟨⟨⟨⟨⟨⟨hraw, hcontent⟩, hdlen⟩, htx⟩, hidx⟩, htick⟩, hup⟩, hearlier⟩

/-! The receive session (R23 to R28, R50, R51). -/

/-- `RAW` holds the bytes `fed`, and `CONTENT` the part of `content` for which it has room. -/
def Holds (s : State) (fed content : List Byte) : Prop :=
  s.rawLen = fed.length ∧ bytesBelow s.raw s.rawLen = fed
    ∧ s.contentLen = min content.length s.cfg.contentCap
    ∧ bytesBelow s.content s.contentLen = content.take s.cfg.contentCap

section
variable {s : State} {fed content : List Byte}

/-- R123. -/
theorem holds_start (s : State) :
    Holds { s with raw := Memory.write s.raw 0 soh, rawLen := 1, contentLen := 0 } [soh] [] :=
  ⟨rfl, bytesBelow_write_end s.raw 0 soh, by simp, by simp⟩

/-- R13: a byte appended to `RAW` alone. -/
theorem holds_appendRaw (h : Holds s fed content) (b : Byte) :
    Holds { s with raw := Memory.write s.raw s.rawLen b, rawLen := s.rawLen + 1 } (fed ++ [b]) content := by
  obtain ⟨hlen, hraw, hclen, hcontent⟩ := h
  exact ⟨by simp [hlen], by rw [bytesBelow_write_end, hraw], hclen, hcontent⟩

/-- R133, with room in `CONTENT`. -/
theorem holds_keep (h : Holds s fed content) (b : Byte) (hroom : s.contentLen < s.cfg.contentCap) :
    Holds { s with raw := Memory.write s.raw s.rawLen b, rawLen := s.rawLen + 1
                   content := Memory.write s.content s.contentLen b, contentLen := s.contentLen + 1 }
      (fed ++ [b]) (content ++ [b]) := by
  obtain ⟨hlen, hraw, -, -⟩ := holds_appendRaw h b
  obtain ⟨-, -, hclen, hcontent⟩ := h
  have hfits : content.length < s.cfg.contentCap := by omega
  refine ⟨hlen, hraw, ?_, ?_⟩
  · simp only [List.length_append, List.length_singleton]
    omega
  · simp only [bytesBelow_write_end, hcontent]
    rw [List.take_of_length_le hfits.le, List.take_of_length_le (by simp; omega)]

/-- R133, with `CONTENT` full. -/
theorem holds_drop (h : Holds s fed content) (b : Byte) (hfull : s.cfg.contentCap ≤ s.contentLen) :
    Holds { s with raw := Memory.write s.raw s.rawLen b, rawLen := s.rawLen + 1 } (fed ++ [b]) (content ++ [b]) := by
  obtain ⟨hlen, hraw, hclen, hcontent⟩ := holds_appendRaw h b
  have hover : s.cfg.contentCap ≤ content.length := by
    simp only at hclen
    omega
  refine ⟨hlen, hraw, ?_, ?_⟩
  · simp only [List.length_append, List.length_singleton] at hclen ⊢
    omega
  · rw [List.take_append_of_le_length hover]
    exact hcontent

end

/-- What the session holds in each receive state, in terms of the bytes consumed. -/
def SessionHolds (s : State) : Prop :=
  match s.rxState with
  | .idle => s.rawLen = 0 ∧ s.contentLen = 0
  | .addr0 => Holds s (sessionHeader s 1) []
  | .addr1 => Holds s (sessionHeader s 2) []
  | .sep => Holds s (sessionHeader s 3) []
  | .cmd => Holds s (sessionHeader s 4) []
  | .cstart => Holds s (sessionHeader s 5) [] ∧ isLetter s.cmd = true
  | .content =>
    ∃ content, Holds s (sessionHeader s 6 ++ content) content ∧ carriable content = true ∧ isLetter s.cmd = true
  | .ck0 | .ck1 | .ck2 | .ck3 =>
    ∃ content, Holds s (frameBody (addrCh0 s.devAddr) (addrCh1 s.devAddr) s.cmd content) content
      ∧ carriable content = true ∧ isLetter s.cmd = true
      ∧ s.expCrc = crc16 s.cfg.crc (frameBody (addrCh0 s.devAddr) (addrCh1 s.devAddr) s.cmd content)

theorem contentHeld_iff {s : State} {content : List Byte} :
    contentHeld s content = true ↔ carriable content = true ∧ isLetter s.cmd = true
      ∧ s.contentLen = min content.length s.cfg.contentCap
      ∧ bytesBelow s.content s.contentLen = content.take s.cfg.contentCap := by
  simp only [contentHeld, Bool.and_eq_true, decide_eq_true_eq, and_assoc]

theorem holds_header_iff {s : State} {n : Nat} (hn : n ≤ 6) :
    Holds s (sessionHeader s n) [] ↔
      s.rawLen = n ∧ s.contentLen = 0 ∧ bytesBelow s.raw s.rawLen = sessionHeader s n := by
  have hlen : (sessionHeader s n).length = n := by simpa [sessionHeader] using hn
  rw [Holds, hlen]
  constructor
  · rintro ⟨hraw, hheld, hcontent, -⟩
    exact ⟨hraw, by simpa using hcontent, hheld⟩
  · rintro ⟨hraw, hcontent, hheld⟩
    exact ⟨hraw, hheld, by simpa using hcontent, by simp [hcontent]⟩

theorem drop_frameBody (a0 a1 cmd : Byte) (content : List Byte) :
    ((frameBody a0 a1 cmd content).drop 6).dropLast = content := by
  simp [frameBody]

theorem sessionOk_iff {s : State} : sessionOk s = true ↔ SessionHolds s := by
  unfold sessionOk SessionHolds
  cases hs : s.rxState <;> simp only [Bool.and_eq_true, decide_eq_true_eq]
  case addr0 | addr1 | sep | cmd | cstart => rw [holds_header_iff (by decide)]; simp only [and_assoc]
  case content =>
    rw [contentHeld_iff]
    constructor
    · rintro ⟨⟨⟨-, hlen⟩, hheld⟩, hcar, hletter, hcontent⟩
      refine ⟨(bytesBelow s.raw s.rawLen).drop 6, ⟨?_, hheld, hcontent⟩, hcar, hletter⟩
      rw [← hheld, hlen]
    · rintro ⟨content, ⟨hlen, hheld, hcontent⟩, hcar, hletter⟩
      have hdrop : (bytesBelow s.raw s.rawLen).drop 6 = content := by simp [hheld, sessionHeader]
      rw [hdrop, hheld]
      exact ⟨⟨⟨by simp [hlen, sessionHeader], hlen.symm⟩, rfl⟩, hcar, hletter, hcontent⟩
  case ck0 | ck1 | ck2 | ck3 =>
    rw [contentHeld_iff]
    constructor
    · rintro ⟨⟨⟨⟨-, hlen⟩, hheld⟩, hcar, hletter, hcontent⟩, hcrc⟩
      refine ⟨((bytesBelow s.raw s.rawLen).drop 6).dropLast, ⟨?_, hheld, hcontent⟩, hcar, hletter, ?_⟩
      · rw [← hheld, hlen]
      · rw [← hheld, hcrc]
    · rintro ⟨content, ⟨hlen, hheld, hcontent⟩, hcar, hletter, hcrc⟩
      have hdrop : ((bytesBelow s.raw s.rawLen).drop 6).dropLast = content := by rw [hheld, drop_frameBody]
      rw [hdrop, hheld]
      exact ⟨⟨⟨⟨by simp [hlen], hlen.symm⟩, rfl⟩, hcar, hletter, hcontent⟩, hcrc⟩

/-! The accepted frame (R29, R138, R161). -/

theorem latchOk_of_rx {s : State} (hp : s.phase = .rx) : latchOk s = true := by
  rw [latchOk, hp]

theorem latchOk_iff {s : State} (hp : s.phase ≠ .rx) :
    latchOk s = true ↔ s.rxState = .idle ∧ isLetter s.dcmd = true ∧ (bytesBelow s.content s.dlen).length = s.dlen := by
  unfold latchOk
  cases hp' : s.phase <;> simp_all [and_assoc]

/-! The capability request (R33, R42, R47). -/

theorem requestOk_iff {s : State} (hp : s.phase ≠ .capWait) : requestOk s = true ↔ s.capKind = .none := by
  unfold requestOk
  cases hp' : s.phase <;> simp_all

theorem requestOk_capWait_iff {s : State} (hp : s.phase = .capWait) :
    requestOk s = true ↔ ∃ d, s.cfg.registry[s.capCh]? = some d ∧ s.capPort < d.portCount
      ∧ ((s.capKind = .read ∧ s.dcmd = 0x52)
        ∨ (s.capKind = .write ∧ s.dcmd = 0x57 ∧ d.access = .readWrite ∧ s.capValue.length + 4 ≤ s.cfg.contentCap)) := by
  unfold requestOk
  rw [hp]
  cases s.cfg.registry[s.capCh]? <;> simp

/-! The transmit sequencer (R30 to R32, R200 to R208). -/

/-- Outside `PHASE = TX` the sequencer is idle. -/
theorem transmitOk_iff {s : State} (hp : s.phase ≠ .tx) :
    transmitOk s = true ↔ s.de = false ∧ s.txState = .idle ∧ s.txLen = 0 ∧ s.txIdx = 0 := by
  unfold transmitOk
  cases hx : s.txState <;> simp [hp]

/-- Where the sequencer stands in the frame (R205 to R208). -/
def placeOk (len idx : Nat) : TxState → Prop
  | .idle => False
  | .pre => idx = 0
  | .send => idx < len
  | .drain | .post => idx = len

theorem content_of_responseFrame (v : CrcVariant) (cmd : Byte) (k : List Byte) :
    ((responseFrame v cmd k).drop 6).take k.length = k := by
  simp [responseFrame, frame, frameBody]

theorem isResponseFrame_iff {v : CrcVariant} {cmd : Byte} {bytes : List Byte} {n : Nat} :
    (11 ≤ n ∧ bytes.length = n ∧ bytes = responseFrame v cmd ((bytes.drop 6).take (n - 11)))
      ↔ ∃ k, n = 11 + k.length ∧ bytes = responseFrame v cmd k := by
  constructor
  · rintro ⟨hmin, hlen, hframe⟩
    exact ⟨_, by simp only [List.length_take, List.length_drop]; omega, hframe⟩
  · rintro ⟨k, rfl, rfl⟩
    refine ⟨by omega, responseFrame_length .., ?_⟩
    rw [Nat.add_sub_cancel_left, content_of_responseFrame]

/-- In `PHASE = TX` the line is driven and `TXBUF` holds one whole response frame to the latched letter. -/
theorem transmitOk_tx_iff {s : State} (hp : s.phase = .tx) :
    transmitOk s = true ↔ s.de = true ∧ placeOk s.txLen s.txIdx s.txState
      ∧ ∃ k, s.txLen = 11 + k.length ∧ bytesBelow s.txbuf s.txLen = responseFrame s.cfg.crc s.dcmd k := by
  unfold transmitOk
  rw [← isResponseFrame_iff]
  cases hx : s.txState <;> simp [hp, placeOk]
  all_goals tauto

end Sys2Proof.Laws.Invariant

/-! PROOFS. Every step keeps the invariant, one kind of step at a time. -/

namespace Sys2Proof.Laws.Invariant
open Sys2Proof.Machine Sys2Proof.Safety

/-! A receive step. -/

section
variable {s t : State} {b : Byte} {ferr : Bool}

theorem sessionHolds_header {after : RxState} (hs : SessionHolds s)
    (he : headerExpects s.devAddr s.rxState = some (b, after)) :
    SessionHolds { s with raw := Memory.write s.raw s.rawLen b, rawLen := s.rawLen + 1, rxState := after } := by
  unfold SessionHolds at hs
  cases hx : s.rxState <;> rw [hx] at hs he <;> cases he
  · exact holds_appendRaw hs _
  · exact holds_appendRaw hs _
  · exact holds_appendRaw hs _
  · obtain ⟨hheld, hletter⟩ := hs
    exact ⟨[], holds_appendRaw hheld _, rfl, hletter⟩

theorem sessionHolds_digit {lo : Nat} {after : RxState} (hs : SessionHolds s)
    (he : digitExpects s.rxState = some (lo, after)) : SessionHolds { s with rxState := after } := by
  unfold SessionHolds at hs
  cases hx : s.rxState <;> rw [hx] at hs he <;> cases he <;> exact hs

theorem rxStep_session (h : RxStep s b ferr t) (hs : SessionHolds s) : SessionHolds t := by
  cases h with
  | discard _ => exact hs
  | abort _ _ => exact ⟨rfl, rfl⟩
  | start _ _ _ => exact holds_start s
  | header after _ he _ => exact sessionHolds_header hs he
  | letter _ hx hb _ =>
    simp only [SessionHolds, hx] at hs
    exact ⟨holds_appendRaw hs b, hb⟩
  | dataKept _ hx hb _ hroom =>
    simp only [SessionHolds, hx] at hs ⊢
    obtain ⟨content, hheld, hcar, hletter⟩ := hs
    refine ⟨content ++ [b], ?_, ?_, hletter⟩
    · rw [← List.append_assoc]
      exact holds_keep hheld b hroom
    · exact (Decoding.carriable_append _ _).2 ⟨hcar, (Decoding.carriable_cons b []).2 ⟨hb.1, hb.2, rfl⟩⟩
  | dataDropped _ hx hb _ hfull =>
    simp only [SessionHolds, hx] at hs ⊢
    obtain ⟨content, hheld, hcar, hletter⟩ := hs
    refine ⟨content ++ [b], ?_, ?_, hletter⟩
    · rw [← List.append_assoc]
      exact holds_drop hheld b hfull
    · exact (Decoding.carriable_append _ _).2 ⟨hcar, (Decoding.carriable_cons b []).2 ⟨hb.1, hb.2, rfl⟩⟩
  | contentEnd _ hx _ _ _ =>
    simp only [SessionHolds, hx] at hs
    obtain ⟨content, hheld, hcar, hletter⟩ := hs
    refine ⟨content, holds_appendRaw hheld etx, hcar, hletter, ?_⟩
    obtain ⟨-, hraw, -⟩ := hheld
    simp only [hraw]
    rfl
  | digit lo after _ he _ => exact sessionHolds_digit hs he
  | accepted _ _ _ => exact ⟨rfl, rfl⟩

theorem rxStep_memoryOk (h : RxStep s b ferr t) (hs : memoryOk s = true) : memoryOk t = true := by
  have hraw : ∀ a v, memoryOk { s with raw := Memory.write s.raw a v } = true :=
    fun a v => memoryOk_setBuf .raw hs (Memory.wf_write _ a v (memoryOk_buf .raw hs))
  cases h with
  | discard _ => exact hs
  | abort _ _ => exact hs
  | start _ _ _ => exact hraw 0 soh
  | header after _ _ _ => exact hraw _ b
  | letter _ _ _ _ => exact hraw _ b
  | dataKept _ _ _ _ _ =>
    exact memoryOk_setBuf .content (hraw _ b) (Memory.wf_write _ _ b (memoryOk_buf .content hs))
  | dataDropped _ _ _ _ _ => exact hraw _ b
  | contentEnd _ _ _ _ _ => exact hraw _ etx
  | digit _ _ _ _ _ => exact hs
  | accepted _ _ _ => exact hs

theorem rxStep_ranges (h : RxStep s b ferr t) (hs : Ranges s) : Ranges t := by
  cases h with
  | discard _ => exact hs
  | abort _ _ => exact { hs with rawLen := Nat.zero_le _, contentLen := Nat.zero_le _ }
  | start _ _ hcap => exact { hs with rawLen := hcap, contentLen := Nat.zero_le _ }
  | header _ _ _ hcap => exact { hs with rawLen := hcap }
  | letter _ _ _ hcap => exact { hs with rawLen := hcap }
  | dataKept _ _ _ hcap hroom => exact { hs with rawLen := hcap, contentLen := hroom }
  | dataDropped _ _ _ hcap _ => exact { hs with rawLen := hcap }
  | contentEnd _ _ _ hcap _ => exact { hs with rawLen := hcap }
  | digit _ _ _ _ _ => exact { hs with }
  | accepted _ _ _ =>
    exact { hs with rawLen := Nat.zero_le _, contentLen := Nat.zero_le _, dlen := hs.contentLen
                    earlierUptimes := fun _ hu => nomatch hu }

/-- R138: what acceptance latches is the letter and the content held. -/
theorem latchOk_accepted (hs : SessionHolds s) (hx : s.rxState = .ck3) :
    latchOk { s with dcmd := s.cmd, dlen := s.contentLen, rxState := .idle, rawLen := 0, contentLen := 0
                     phase := .dispatch, earlierUptimes := [] } = true := by
  simp only [SessionHolds, hx] at hs
  obtain ⟨content, ⟨-, -, hclen, hcontent⟩, -, hletter, -⟩ := hs
  refine (latchOk_iff (by simp)).2 ⟨rfl, hletter, ?_⟩
  simp only
  rw [hcontent, hclen, List.length_take, Nat.min_comm]

theorem rxStep_inv (h : RxStep s b ferr t) (hs : Inv s) (hp : s.phase = .rx) (hr : s.rst = false) : Inv t := by
  have hsession := sessionOk_iff.1 hs.session
  have hkind : s.capKind = .none := (requestOk_iff (by simp [hp])).1 hs.request
  have hquiet := (transmitOk_iff (by simp [hp])).1 hs.transmit
  obtain ⟨hcfg, -, hrst⟩ := Engine.rxStep_sameSetup h
  refine ⟨hcfg ▸ hs.config, rxStep_memoryOk h hs.memory, rangesOk_iff.2 (rxStep_ranges h (rangesOk_iff.1 hs.ranges)),
    sessionOk_iff.2 (rxStep_session h hsession), ?latch, ?request, ?transmit, by simp [resetHeldOk, hrst, hr]⟩
  case latch =>
    cases h with
    | accepted _ hx _ => exact latchOk_accepted hsession hx
    | _ => exact latchOk_of_rx hp
  case request =>
    cases h with
    | accepted _ _ _ => exact (requestOk_iff (by simp)).2 hkind
    | _ => exact (requestOk_iff (by simp [hp])).2 hkind
  case transmit =>
    cases h with
    | accepted _ _ _ => exact (transmitOk_iff (by simp)).2 hquiet
    | _ => exact (transmitOk_iff (by simp [hp])).2 hquiet

end

/-! A response (R200). -/

theorem respond_inv {k : List Byte} {s t : State} (h : respond k s = .ok t) (hconfig : configOk s.cfg = true)
    (hmemory : memoryOk s = true) (hranges : Ranges s) (hsession : sessionOk s = true) (hlatch : latchOk s = true)
    (hkind : s.capKind = .none) (hr : s.rst = false) : Inv t := by
  have hmemory' := respond_memoryOk hmemory h
  obtain ⟨hfits, hp, rfl⟩ := respond_ok.1 h
  have hlatched := (latchOk_iff hp).1 hlatch
  refine ⟨hconfig, hmemory', rangesOk_iff.2 ?_, hsession, (latchOk_iff (by simp)).2 hlatched,
    (requestOk_iff (by simp)).2 hkind, (transmitOk_tx_iff rfl).2 ?_, by simp [resetHeldOk, hr]⟩
  · exact { hranges with txLen := Nat.add_le_add_left hfits 11, txIdx := Nat.zero_le _ }
  · refine ⟨rfl, rfl, k, rfl, ?_⟩
    have hbuilt := bytesBelow_fillFrom s.txbuf (responseFrame s.cfg.crc s.dcmd k)
    rwa [responseFrame_length] at hbuilt

/-! A command (R160 to R167). -/

theorem fetch_ok {s : State} {bytes : List Byte} (h : fetch s = .ok bytes) :
    bytes = s.dcmd :: bytesBelow s.content s.dlen ∧ (bytesBelow s.content s.dlen).length = s.dlen := by
  unfold fetch readDcmd readDlen at h
  by_cases hp : s.phase = .rx
  · simp [hp] at h
  simp only [hp, if_false] at h
  split at h
  · cases h
  · rename_i content hread
    cases h
    obtain ⟨rfl, hlen⟩ := readPrefix_ok hread
    exact ⟨rfl, hlen⟩

/-- R81: the value of a write is at least four bytes shorter than the content. -/
theorem value_length_of_operandW {cfg : Config} {c value : List Byte} {channel port : Nat}
    (h : operandW cfg c = some (channel, port, value)) : value.length + 4 ≤ c.length := by
  obtain ⟨a, b, rfl, -, -, ha, hb⟩ := Decoding.operandW_eq_some_iff.1 h
  have ha : 0 < a.length := List.length_pos_iff.2 ((Encoding.parseNum_eq_some_iff ..).1 ha).1
  have hb : 0 < b.length := List.length_pos_iff.2 ((Encoding.parseNum_eq_some_iff ..).1 hb).1
  simp only [List.length_append, List.length_cons]
  omega

theorem exec_inv {s t : State} {bytes : List Byte} {i : Instr} (hs : Inv s) (hp : s.phase = .dispatch)
    (hr : s.rst = false) (hf : fetch s = .ok bytes) (hd : decode bytes = .ok i) (h : exec i s = .next t) : Inv t := by
  have hranges := rangesOk_iff.1 hs.ranges
  have hlatched := (latchOk_iff (by simp [hp])).1 hs.latch
  have hkind : s.capKind = .none := (requestOk_iff (by simp [hp])).1 hs.request
  have hquiet := (transmitOk_iff (by simp [hp])).1 hs.transmit
  obtain ⟨hletter, hcontent⟩ : s.dcmd = i.letter ∧ bytesBelow s.content s.dlen = i.content := by
    obtain ⟨hbytes, -⟩ := fetch_ok hf
    simpa [hbytes, encodeWord] using Decoding.eq_encodeWord_of_decode hd
  obtain ⟨k, n, hresp⟩ | ⟨c, channel, port, d, rfl, -, hch, hport, rfl⟩
    | ⟨c, channel, port, value, d, rfl, hop, hch, ha, hport, rfl⟩ | rfl := exec_cases h
  · exact respond_inv hresp hs.config hs.memory { hranges with } hs.session hs.latch hkind hr
  · refine ⟨hs.config, hs.memory, hs.ranges, hs.session, (latchOk_iff (by simp)).2 hlatched,
      (requestOk_capWait_iff rfl).2 ?_, (transmitOk_iff (by simp)).2 hquiet, by simp [resetHeldOk, hr]⟩
    exact ⟨d, hch, hport, .inl ⟨rfl, hletter⟩⟩
  · refine ⟨hs.config, hs.memory, hs.ranges, hs.session, (latchOk_iff (by simp)).2 hlatched,
      (requestOk_capWait_iff rfl).2 ?_, (transmitOk_iff (by simp)).2 hquiet, by simp [resetHeldOk, hr]⟩
    have hvalue : value.length + 4 ≤ s.cfg.contentCap :=
      calc value.length + 4 ≤ c.length := value_length_of_operandW hop
        _ = (bytesBelow s.content s.dlen).length := congrArg List.length hcontent.symm
        _ ≤ s.dlen := bytesBelow_length_le ..
        _ ≤ s.cfg.contentCap := hranges.dlen
    exact ⟨d, hch, hport, .inr ⟨rfl, hletter, ha, hvalue⟩⟩
  · exact ⟨hs.config, hs.memory, hs.ranges, hs.session, latchOk_of_rx rfl, (requestOk_iff (by simp)).2 hkind,
      (transmitOk_iff (by simp)).2 hquiet, by simp [resetHeldOk, hr]⟩

/-! A capability answer (R168 to R170). -/

theorem capabilityAnswer_inv {i : Inputs} {s t : State} (hs : Inv s) (hr : s.rst = false)
    (h : capabilityAnswer i s = .ok t) : Inv t := by
  obtain rfl | ⟨-, -, hresp⟩ | ⟨-, -, hresp⟩ := capabilityAnswer_cases h
  · exact hs
  all_goals
    exact respond_inv hresp hs.config hs.memory { rangesOk_iff.1 hs.ranges with } hs.session hs.latch rfl hr

/-! The transmit sequencer (R205 to R208). -/

theorem transmit_inv {i : Inputs} {s t : State} (hs : Inv s) (hp : s.phase = .tx) (hr : s.rst = false)
    (h : transmit i s = .ok t) : Inv t := by
  have hranges := rangesOk_iff.1 hs.ranges
  have hlatched := (latchOk_iff (by simp [hp])).1 hs.latch
  have hkind : s.capKind = .none := (requestOk_iff (by simp [hp])).1 hs.request
  obtain ⟨hde, hplace, k, hlen, hframe⟩ := (transmitOk_tx_iff hp).1 hs.transmit
  obtain rfl | ⟨hx, rfl⟩ | ⟨hx, htake⟩ | ⟨hx, rfl⟩ | ⟨hx, rfl⟩ := transmit_cases h
  · exact hs
  · rw [hx] at hplace
    have hidx : s.txIdx = 0 := hplace
    refine ⟨hs.config, hs.memory, hs.ranges, hs.session, hs.latch, hs.request,
      (transmitOk_tx_iff (by exact hp)).2 ?_, hs.held⟩
    exact ⟨hde, show s.txIdx < s.txLen by omega, k, hlen, hframe⟩
  · rw [hx] at hplace
    have hidx : s.txIdx < s.txLen := hplace
    obtain ⟨b, -, -, rfl⟩ := txTakeByte_ok.1 htake
    refine ⟨hs.config, hs.memory, rangesOk_iff.2 { hranges with txIdx := hidx }, hs.session, hs.latch, hs.request,
      (transmitOk_tx_iff (by exact hp)).2 ⟨hde, ?_, k, hlen, hframe⟩, hs.held⟩
    by_cases hlast : s.txIdx + 1 = s.txLen
    · simpa [hlast] using (show placeOk s.txLen s.txLen .drain from rfl)
    · simpa [hlast] using (show placeOk s.txLen (s.txIdx + 1) .send from lt_of_le_of_ne hidx hlast)
  · rw [hx] at hplace
    exact ⟨hs.config, hs.memory, hs.ranges, hs.session, hs.latch, hs.request,
      (transmitOk_tx_iff (by exact hp)).2 ⟨hde, hplace, k, hlen, hframe⟩, hs.held⟩
  · exact ⟨hs.config, hs.memory, rangesOk_iff.2 { hranges with txLen := Nat.zero_le _, txIdx := Nat.zero_le _ },
      hs.session, latchOk_of_rx rfl, (requestOk_iff (by simp)).2 hkind,
      (transmitOk_iff (by simp)).2 ⟨rfl, rfl, rfl, rfl⟩, by simp [resetHeldOk, hr]⟩

/-! The scheduler and reset (R246, R261, R262). -/

theorem schedulerTick_ranges {s : State} (hc : configOk s.cfg = true) (hs : Ranges s) : Ranges (schedulerTick s) := by
  obtain ⟨-, -, hrate⟩ := parameters_of_configOk hc
  cases hr : s.rst with
  | true => rwa [schedulerTick, if_pos hr]
  | false =>
    rw [Engine.schedulerTick_of_not_rst hr]
    refine { hs with tickCounter := Nat.mod_lt _ hrate, uptimeSeconds := ?_, earlierUptimes := fun u hu => ?_ }
    · simp only
      split
      · exact Nat.mod_lt _ (Nat.two_pow_pos _)
      · exact hs.uptimeSeconds
    · simp only [recordUptime] at hu
      split at hu
      · obtain hu | hu := List.mem_append.1 hu
        · exact hs.earlierUptimes u hu
        · exact List.mem_singleton.1 hu ▸ hs.uptimeSeconds
      · exact hs.earlierUptimes u hu

theorem schedulerTick_inv {s : State} (hs : Inv s) : Inv (schedulerTick s) := by
  have hranges := rangesOk_iff.2 (schedulerTick_ranges hs.config (rangesOk_iff.1 hs.ranges))
  rw [Engine.schedulerTick_frame] at hranges ⊢
  exact ⟨hs.config, hs.memory, hranges, hs.session, hs.latch, hs.request, hs.transmit, hs.held⟩

theorem resetAssert_inv {s : State} (hs : Inv s) : Inv (resetAssert s) := by
  obtain ⟨-, -, hrate⟩ := parameters_of_configOk hs.config
  refine ⟨hs.config, resetAssert_memoryOk s, rangesOk_iff.2 ?_, rfl, rfl, rfl, rfl, rfl⟩
  exact ⟨Nat.zero_le _, Nat.zero_le _, Nat.zero_le _, Nat.zero_le _, le_rfl, hrate, Nat.two_pow_pos _,
    fun _ hu => nomatch hu⟩

/-- While reset is held the session is empty, so no check looks at the address that release samples. -/
theorem release_inv {i : Inputs} {s : State} (hs : Inv s) (hr : s.rst = true) :
    Inv { sampleStraps i s with rst := false } := by
  have hheld : s.phase = .rx ∧ s.rxState = .idle := by simpa [resetHeldOk, hr] using hs.held
  obtain ⟨hp, hx⟩ := hheld
  have hempty : s.rawLen = 0 ∧ s.contentLen = 0 := by simpa [SessionHolds, hx] using sessionOk_iff.1 hs.session
  rw [Engine.sampleStraps_eq]
  refine ⟨hs.config, hs.memory, hs.ranges, sessionOk_iff.2 ?_, latchOk_of_rx hp, hs.request, hs.transmit, rfl⟩
  simpa [SessionHolds, hx] using hempty

/-- The invariant does not look at the events to come. -/
theorem popped_inv {s : State} (hs : Inv s) : Inv s.popped :=
  ⟨hs.config, hs.memory, hs.ranges, hs.session, hs.latch, hs.request, hs.transmit, hs.held⟩

theorem step_inv {s t : State} (h : step s = .next t) (hinv : Inv s) : Inv t := by
  have hs := popped_inv hinv
  cases step_cases h with
  | hold => exact hs
  | tick _ => exact schedulerTick_inv hs
  | reset i _ _ => exact resetAssert_inv hs
  | release i _ _ hr _ => exact release_inv hs hr
  | receive i t _ _ hr hp _ hrx => exact rxStep_inv hrx hs hp hr
  | dispatch bytes i t hr hp hf hd hexec => exact exec_inv hs hp hr hf hd hexec
  | answer i t _ _ hr _ hans => exact capabilityAnswer_inv hs hr hans
  | transmit i t _ _ hr hp htx => exact transmit_inv hs hp hr htx

/-- Settles O53, by the kinds of a step. -/
theorem stepKeepsTheInvariant : Obligations.StepKeepsTheInvariant :=
  fun _ _ hinv h => invariant_iff.2 (step_inv h (invariant_iff.1 hinv))

end Sys2Proof.Laws.Invariant

/-! PROOFS. What the invariant gives: no step stops, what is accepted was a whole frame, and the line is driven exactly
while a response is sent. -/

namespace Sys2Proof.Laws.Invariant
open Sys2Proof.Machine Sys2Proof.Safety

/-- Settles O52, by evaluating the checks on the reset state. -/
theorem resetMeetsTheInvariant : Obligations.ResetMeetsTheInvariant := by
  unfold Obligations.ResetMeetsTheInvariant
  decide +kernel

/-- Settles O57: outside `PHASE = TX` the sequencer is idle and the line released. -/
theorem neverReceivesWhileDriving : Obligations.NeverReceivesWhileDriving := by
  intro s hinv
  have htransmit := (invariant_iff.1 hinv).transmit
  by_cases hp : s.phase = .tx
  · obtain ⟨-, hplace, -⟩ := (transmitOk_tx_iff hp).1 htransmit
    refine ⟨fun hready => by simp [State.rxReady, hp] at hready, fun _ => ⟨hp, fun hx => ?_⟩⟩
    rw [hx] at hplace
    exact hplace
  · obtain ⟨hde, hx, -, -⟩ := (transmitOk_iff hp).1 htransmit
    refine ⟨fun hready => ?_, fun hdriven => by simp [State.deOut, hde] at hdriven⟩
    have hrx : s.phase = .rx := by
      simp only [State.rxReady, Bool.and_eq_true, decide_eq_true_eq] at hready
      exact hready.2
    simp [State.deOut, State.txValid, State.capReqValid, hde, hx, hrx]

/-! No step stops (R15, R49, R200). -/

section
variable {s : State}

theorem rawLen_le_of_holds_header {n : Nat} (h : Holds s (sessionHeader s n) []) : s.rawLen ≤ n := by
  obtain ⟨hlen, -⟩ := h
  exact hlen.trans_le (List.length_take_le ..)

theorem rawLen_lt_of_header (hs : SessionHolds s) (hc : configOk s.cfg = true) {want : Byte} {after : RxState}
    (he : headerExpects s.devAddr s.rxState = some (want, after)) : s.rawLen < s.cfg.rawCap := by
  obtain ⟨hcap, -, -⟩ := parameters_of_configOk hc
  have hle : s.rawLen ≤ 5 := by
    unfold SessionHolds at hs
    cases hx : s.rxState <;> rw [hx] at hs he <;> cases he
    case addr0 => exact (rawLen_le_of_holds_header hs).trans (by decide)
    case addr1 => exact (rawLen_le_of_holds_header hs).trans (by decide)
    case sep => exact (rawLen_le_of_holds_header hs).trans (by decide)
    case cstart => exact rawLen_le_of_holds_header hs.1
  omega

theorem rxByState_answers (hs : Inv s) (b : Byte) : ∃ t, rxByState b s = .ok t := by
  have hsession := sessionOk_iff.1 hs.session
  have header : ∀ {want after}, headerExpects s.devAddr s.rxState = some (want, after) → ∃ t, rxByState b s = .ok t :=
    fun he => ⟨_, Receive.rxByState_header he (rawLen_lt_of_header hsession hs.config he)⟩
  have digit : ∀ {lo after}, digitExpects s.rxState = some (lo, after) → ∃ t, rxByState b s = .ok t :=
    fun he => ⟨_, Receive.rxByState_digit he⟩
  cases hx : s.rxState with
  | idle => exact ⟨_, Receive.rxByState_idle hx⟩
  | addr0 | addr1 | sep | cstart => exact header (by rw [hx, headerExpects])
  | cmd =>
    unfold SessionHolds at hsession
    rw [hx] at hsession
    have hle : s.rawLen ≤ 4 := rawLen_le_of_holds_header hsession
    obtain ⟨hcap, -, -⟩ := parameters_of_configOk hs.config
    exact ⟨_, Receive.rxByState_cmd hx (by omega)⟩
  | content =>
    obtain hfull | hroom := (rangesOk_iff.1 hs.ranges).rawLen.eq_or_lt
    · exact ⟨_, Receive.rxByState_content_full hx hfull⟩
    by_cases hb : b = etx
    · have hheld : (bytesBelow s.raw s.rawLen).length = s.rawLen := by
        unfold SessionHolds at hsession
        rw [hx] at hsession
        obtain ⟨content, ⟨hlen, hraw, -⟩, -⟩ := hsession
        rw [hraw, hlen]
      exact ⟨_, hb ▸ Receive.rxByState_content_etx hx hroom hheld⟩
    · exact ⟨_, Receive.rxByState_content_data hx hroom hb⟩
  | ck0 | ck1 | ck2 => exact digit (by rw [hx, digitExpects])
  | ck3 => exact ⟨_, Receive.rxByState_ck3 hx⟩

theorem receive_answers (hs : Inv s) (b : Byte) (ferr : Bool) : ∃ t, receive b ferr s = .ok t := by
  unfold receive
  split
  · exact ⟨s, rfl⟩
  split
  · unfold rxSoh
    split
    · exact ⟨_, rfl⟩
    · obtain ⟨hcap, -, -⟩ := parameters_of_configOk hs.config
      exact ⟨_, startSession_ok.2 ⟨by omega, rfl⟩⟩
  · exact rxByState_answers hs b

theorem fetch_of_latched (hp : s.phase ≠ .rx) (hcap : s.dlen ≤ s.cfg.contentCap)
    (hfull : (bytesBelow s.content s.dlen).length = s.dlen) :
    fetch s = .ok (s.dcmd :: bytesBelow s.content s.dlen) := by
  have hread : readPrefix s .content s.dlen = .ok (bytesBelow s.content s.dlen) :=
    readPrefix_of_full hcap (by simp [State.validLen, hp]) hfull
  simp [fetch, readDcmd, readDlen, hp, hread]

theorem exec_answers (hp : s.phase = .dispatch) (hc : configOk s.cfg = true) (i : Instr) : ∃ t, exec i s = .next t := by
  cases i with
  | p c =>
    obtain ⟨t, ht, -⟩ := Engine.pingAnswersWithTheUptime s c hp hc
    exact ⟨t, ht⟩
  | d c =>
    obtain ⟨t, ht, -⟩ := Commands.describeAnswersInOrder s c hp hc
    exact ⟨t, ht⟩
  | r c =>
    obtain ⟨hrequest, hmalformed, hchannel, hport⟩ := Commands.readChecksInOrder s c hp hc
    cases hop : operandR s.cfg c with
    | none => exact (hmalformed hop).imp fun _ h => h.1
    | some operands =>
      obtain ⟨channel, port⟩ := operands
      cases hd : s.cfg.registry[channel]? with
      | none => exact (hchannel channel port hop (List.getElem?_eq_none_iff.1 hd)).imp fun _ h => h.1
      | some d =>
        obtain hlt | hge := lt_or_ge port d.portCount
        · exact ⟨_, hrequest channel port d hop hd hlt⟩
        · exact (hport channel port d hop hd hge).imp fun _ h => h.1
  | w c =>
    obtain ⟨hrequest, hmalformed, hchannel, hreadOnly, hport⟩ := Commands.writeChecksInOrder s c hp hc
    cases hop : operandW s.cfg c with
    | none => exact (hmalformed hop).imp fun _ h => h.1
    | some operands =>
      obtain ⟨channel, port, value⟩ := operands
      cases hd : s.cfg.registry[channel]? with
      | none => exact (hchannel channel port value hop (List.getElem?_eq_none_iff.1 hd)).imp fun _ h => h.1
      | some d =>
        cases ha : d.access with
        | readOnly => exact (hreadOnly channel port value d hop hd ha).imp fun _ h => h.1
        | readWrite =>
          obtain hlt | hge := lt_or_ge port d.portCount
          · exact ⟨_, hrequest channel port value d hop hd ha hlt⟩
          · exact (hport channel port value d hop hd ha hge).imp fun _ h => h.1
  | _ c => exact ⟨_, rfl⟩

theorem dispatch_answers (hs : Inv s) (hp : s.phase = .dispatch) : ∃ t, dispatch s = .next t := by
  obtain ⟨-, hletter, hfull⟩ := (latchOk_iff (by simp [hp])).1 hs.latch
  obtain ⟨i, hd, -⟩ := Decoding.decode_of_isLetter hletter (bytesBelow s.content s.dlen)
  obtain ⟨t, ht⟩ := exec_answers hp hs.config i
  have hf := fetch_of_latched (by simp [hp]) (rangesOk_iff.1 hs.ranges).dlen hfull
  exact ⟨t, by simp [dispatch, hf, hd, ht]⟩

theorem capabilityAnswer_answers (hs : Inv s) (hp : s.phase = .capWait) {i : Inputs}
    (hi : i.capRspContent.length ≤ s.cfg.respContentCap) : ∃ t, capabilityAnswer i s = .ok t := by
  have hrespond : ∀ k : List Byte, k.length ≤ s.cfg.respContentCap →
      ∃ t, respond k { s with capKind := .none } = .ok t :=
    fun k hk => (respond_of_fits (s := { s with capKind := .none }) hk (by simp [hp])).imp fun _ h => h.1
  cases hv : i.capRspValid with
  | false => exact ⟨s, by simp [capabilityAnswer, hv]⟩
  | true =>
    cases hk : s.capKind with
    | none => exact ⟨s, by simp [capabilityAnswer, hk]⟩
    | read =>
      rw [Commands.capabilityAnswer_read hv hk]
      exact hrespond _ hi
    | write =>
      obtain ⟨-, hcap, -⟩ := parameters_of_configOk hs.config
      rw [Commands.capabilityAnswer_write hv hk]
      exact hrespond _ (by simp only [List.length_singleton]; omega)

/-- A byte of the frame that `TXBUF` holds can be read. -/
theorem memRead_of_frame {frame : List Byte} {b : Byte} (hlen : s.txLen = frame.length)
    (hframe : bytesBelow s.txbuf s.txLen = frame) (hcap : s.txLen ≤ 11 + s.cfg.respContentCap)
    (hb : frame[s.txIdx]? = some b) : memRead s .txbuf s.txIdx = .ok b := by
  have hlt : s.txIdx < s.txLen := hlen ▸ (List.getElem?_eq_some_iff.1 hb).1
  have hread := bytesBelow_full_read (by rw [hframe, hlen]) s.txIdx hlt
  rw [hframe, hb] at hread
  exact memRead_ok.2 ⟨hlt.trans_le hcap, hlt, hread⟩

theorem memRead_of_send (hs : Inv s) (hp : s.phase = .tx) (hx : s.txState = .send) :
    ∃ b, memRead s .txbuf s.txIdx = .ok b := by
  obtain ⟨-, hplace, k, hlen, hframe⟩ := (transmitOk_tx_iff hp).1 hs.transmit
  rw [hx] at hplace
  rw [← responseFrame_length s.cfg.crc s.dcmd k] at hlen
  have hin : s.txIdx < (responseFrame s.cfg.crc s.dcmd k).length := hlen ▸ hplace
  exact ⟨_, memRead_of_frame hlen hframe (rangesOk_iff.1 hs.ranges).txLen (List.getElem?_eq_getElem hin)⟩

theorem transmit_answers (hs : Inv s) (hp : s.phase = .tx) (i : Inputs) : ∃ t, transmit i s = .ok t := by
  unfold transmit
  cases hx : s.txState with
  | send =>
    obtain ⟨b, hb⟩ := memRead_of_send hs hp hx
    simp only
    split
    · exact ⟨_, txTakeByte_ok.2 ⟨b, hx, hb, rfl⟩⟩
    · exact ⟨_, rfl⟩
  | _ => exact ⟨_, rfl⟩

theorem engineStep_answers (hs : Inv s) {i : Inputs} (hi : i.capRspContent.length ≤ s.cfg.respContentCap) :
    ∃ t, engineStep i s = .next t := by
  unfold engineStep
  cases hp : s.phase with
  | rx =>
    simp only [receiveStep, toOutcome_next]
    split
    · exact receive_answers hs _ _
    · exact ⟨_, rfl⟩
  | dispatch => exact dispatch_answers hs hp
  | capWait =>
    simp only [toOutcome_next]
    exact capabilityAnswer_answers hs hp hi
  | tx =>
    simp only [toOutcome_next]
    exact transmit_answers hs hp i

theorem quietStep_answers (hs : Inv s) : ∃ t, quietStep s = .next t := by
  unfold quietStep
  split
  · exact ⟨_, rfl⟩
  · cases hp : s.phase with
    | dispatch => exact dispatch_answers hs hp
    | _ => exact ⟨_, rfl⟩

theorem instantStep_answers (hs : Inv s) {i : Inputs} (hi : i.capRspContent.length ≤ s.cfg.respContentCap) :
    ∃ t, instantStep i s = .next t := by
  unfold instantStep
  split
  · exact ⟨_, rfl⟩
  split
  · exact ⟨_, if_pos hs.config⟩
  · exact engineStep_answers hs hi

end

/-- Settles O54, by the first event to come. -/
theorem invariantStatesNeverStop : Obligations.InvariantStatesNeverStop := by
  intro s hinv hproviders
  have hs := invariant_iff.1 hinv
  have hpopped := popped_inv hs
  cases hin : s.inputs with
  | nil =>
    rw [Engine.step_of_nil hin]
    exact quietStep_answers hs
  | cons e rest =>
    have hfacing : s.popped = facing s rest := by simp [State.popped, facing, hin]
    cases e with
    | tick => exact ⟨_, Engine.step_of_tick hin⟩
    | instant i =>
      have hi : i.capRspContent.length ≤ s.cfg.respContentCap := by
        have hall := List.all_eq_true.1 hproviders (.instant i) (by simp [hin])
        exact of_decide_eq_true hall
      rw [Engine.step_of_instant hin, ← hfacing]
      exact instantStep_answers hpopped hi

/-! Acceptance (R138, R143, R144). -/

/-- A step from receiving to dispatching is an acceptance. -/
theorem accepted_of_step {s t : State} (h : step s = .next t) (hp : s.phase = .rx) (ht : t.phase = .dispatch) :
    ∃ i, s.inputs.head? = some (.instant i) ∧ i.rxValid = true ∧ s.rxState = .ck3
      ∧ i.rxData = hex1 (s.expCrc.extractLsb' 0 4)
      ∧ t = { s.popped with dcmd := s.cmd, dlen := s.contentLen, rxState := .idle, rawLen := 0, contentLen := 0
                            phase := .dispatch, earlierUptimes := [] } := by
  have stays : ∀ {u : State}, u.phase = s.phase → u.phase ≠ .dispatch := fun hu => by simp [hu, hp]
  cases step_cases h with
  | hold => exact absurd ht (stays rfl)
  | tick _ =>
    rw [Engine.schedulerTick_frame] at ht
    exact absurd ht (stays rfl)
  | reset i _ _ => cases ht
  | release i _ _ _ _ =>
    rw [Engine.sampleStraps_eq] at ht
    exact absurd ht (stays rfl)
  | receive i t he _ _ _ hv hrx =>
    cases hrx with
    | accepted _ hx hb => exact ⟨i, he, hv, hx, hb, rfl⟩
    | _ => exact absurd ht (stays rfl)
  | dispatch _ _ _ _ hp' _ _ _ => exact absurd hp' (stays rfl)
  | answer _ _ _ _ _ hp' _ => simp [State.popped, hp] at hp'
  | transmit _ _ _ _ _ hp' _ => simp [State.popped, hp] at hp'

/-- Settles O27: the session of `CK3` holds a whole frame body and its checksum. -/
theorem onlyWholeFramesAreAccepted : Obligations.OnlyWholeFramesAreAccepted := by
  intro s t hinv hstep hp ht
  have hs := invariant_iff.1 hinv
  obtain ⟨i, hin, hv, hx, hb, rfl⟩ := accepted_of_step hstep hp ht
  have hsession := sessionOk_iff.1 hs.session
  simp only [SessionHolds, hx] at hsession
  obtain ⟨content, ⟨hlen, hraw, hclen, hcontent⟩, hcar, hletter, hcrc⟩ := hsession
  rw [frameBody_length] at hlen
  exact ⟨content, hraw, hletter, hcar, hlen ▸ (rangesOk_iff.1 hs.ranges).rawLen, hx, hcrc.trans (by rw [hraw]),
    ⟨i, hin, hv, hb⟩, hclen, hcontent⟩

/-! The line (R211, R32). -/

theorem rxStep_emitted {s t : State} {b : Byte} {ferr : Bool} (h : RxStep s b ferr t) : t.emitted = s.emitted := by
  cases h <;> rfl

theorem respond_emitted {k : List Byte} {s t : State} (h : respond k s = .ok t) : t.emitted = s.emitted := by
  obtain ⟨-, -, rfl⟩ := respond_ok.1 h
  rfl

theorem capabilityAnswer_emitted {i : Inputs} {s t : State} (h : capabilityAnswer i s = .ok t) :
    t.emitted = s.emitted := by
  obtain rfl | ⟨-, -, hresp⟩ | ⟨-, -, hresp⟩ := capabilityAnswer_cases h
  · rfl
  all_goals exact (respond_emitted hresp :)

theorem exec_emits_no_byte {i : Instr} {s t : State} (h : exec i s = .next t) (b : Byte) :
    t.emitted ≠ s.emitted ++ [.txByte b] := by
  obtain ⟨he, -⟩ | ⟨-, -, -, -, he⟩ | ⟨-, -, -, -, he⟩ := Engine.atMostOneRequestPerCommand i s t h
  all_goals simp [he]

/-- A step that hands a byte to the UART is a transmit event in `SEND`. -/
theorem txTakeByte_of_step {s t : State} {b : Byte} (h : step s = .next t)
    (he : t.emitted = s.emitted ++ [.txByte b]) :
    s.phase = .tx ∧ s.txState = .send ∧ txTakeByte s.popped = .ok t := by
  have silent : ∀ {u : State}, u.emitted = s.emitted → u.emitted ≠ s.emitted ++ [.txByte b] := fun hu => by simp [hu]
  cases step_cases h with
  | hold => exact absurd he (silent rfl)
  | tick _ =>
    rw [Engine.schedulerTick_frame] at he
    exact absurd he (silent rfl)
  | reset i _ _ => exact absurd he (silent rfl)
  | release i _ _ _ _ =>
    rw [Engine.sampleStraps_eq] at he
    exact absurd he (silent rfl)
  | receive i t _ _ _ _ _ hrx => exact absurd he (silent (rxStep_emitted hrx :))
  | dispatch _ i t _ _ _ _ hexec => exact absurd he (exec_emits_no_byte hexec b)
  | answer i t _ _ _ _ hans => exact absurd he (silent (capabilityAnswer_emitted hans :))
  | transmit i t _ _ _ hp htx =>
    obtain rfl | ⟨-, rfl⟩ | ⟨hx, htake⟩ | ⟨-, rfl⟩ | ⟨-, rfl⟩ := transmit_cases htx
    case inr.inr.inl => exact ⟨hp, hx, htake⟩
    all_goals exact absurd he (silent rfl)

/-- Settles O42: in `SEND` the line is driven, and taking a byte leaves it so. -/
theorem lineIsDrivenWheneverAByteIsSent : Obligations.LineIsDrivenWheneverAByteIsSent := by
  intro s t b hinv hstep he
  obtain ⟨hp, hx, htake⟩ := txTakeByte_of_step hstep he
  obtain ⟨hde, -⟩ := (transmitOk_tx_iff hp).1 (invariant_iff.1 hinv).transmit
  obtain ⟨b', -, -, rfl⟩ := txTakeByte_ok.1 htake
  exact ⟨hp, hx, hde, hp, hde⟩

end Sys2Proof.Laws.Invariant

/-! PROOFS. Runs of events: whole frames received (spec/41_receive.md section 6), whole responses sent (43_response.md
sections 2 and 3). -/

namespace Sys2Proof.Laws.Runs
open Sys2Proof.Machine Sys2Proof.Safety

/-- These events, whatever comes behind them, bring the block from `s` to `t`. -/
def Leads (s : State) (events : List Event) (t : State) : Prop :=
  ∀ later, runEvents s (events ++ later) = runEvents t later

theorem leads_nil (s : State) : Leads s [] s := fun _ => rfl

theorem leads_of_step {s t : State} {e : Event} (h : ∀ later, step (facing s (e :: later)) = .next (facing t later)) :
    Leads s [e] t :=
  fun later => Engine.runEvents_cons (h later)

theorem Leads.append {s t u : State} {first second : List Event} (h : Leads s first t) (h' : Leads t second u) :
    Leads s (first ++ second) u := by
  intro later
  rw [List.append_assoc, h, h']

theorem Leads.run {s t : State} {events : List Event} (h : Leads s events t) :
    runEvents s events = .next (facing t []) := by
  have hrun := h []
  rwa [List.append_nil, Engine.runEvents_nil] at hrun

/-! A response (R205 to R209). -/

/-- An instant in `TX`. -/
theorem leads_of_transmit {s t : State} {i : Inputs} (hp : s.phase = .tx) (hr : s.rst = false) (hi : i.rst = false)
    (h : ∀ later, transmit i (facing s later) = .ok (facing t later)) : Leads s [.instant i] t :=
  leads_of_step fun later =>
    Transmit.step_of_transmit (s := facing s (.instant i :: later)) hp ⟨rfl, hi, hr⟩ (h later)

section
variable {s : State} (hp : s.phase = .tx) (hr : s.rst = false)
include hp hr

/-- R205. -/
theorem leads_preDone (hx : s.txState = .pre) : Leads s [.instant { preDone := true }] (txPreDone s) :=
  leads_of_transmit hp hr rfl fun later => Transmit.transmit_pre (s := facing s later) hx rfl

/-- R207. -/
theorem leads_txComplete (hx : s.txState = .drain) : Leads s [.instant { txComplete := true }] (txDrained s) :=
  leads_of_transmit hp hr rfl fun later => Transmit.transmit_drain (s := facing s later) hx rfl

/-- R208. -/
theorem leads_postDone (hx : s.txState = .post) : Leads s [.instant { postDone := true }] s.returnToRx :=
  leads_of_transmit hp hr rfl fun later => Transmit.transmit_post (s := facing s later) hx rfl

end

/-- The sequencer is in `PHASE = TX`, and `TXBUF` holds this frame. -/
def Streams (s : State) (frame : List Byte) : Prop :=
  s.phase = .tx ∧ s.rst = false ∧ s.txLen = frame.length ∧ bytesBelow s.txbuf s.txLen = frame
    ∧ s.txLen ≤ 11 + s.cfg.respContentCap

/-- R206: from the byte at `TX_IDX` on, the bytes still to send are handed over in order. -/
theorem leads_send {s : State} {sent bytes : List Byte} (hs : Streams s (sent ++ bytes)) (hx : s.txState = .send)
    (hidx : s.txIdx = sent.length) (hne : bytes ≠ []) :
    Leads s (List.replicate bytes.length takeByte)
      { s with txIdx := s.txLen, txState := .drain, emitted := s.emitted ++ bytes.map Emission.txByte } := by
  induction bytes generalizing s sent with
  | nil => exact absurd rfl hne
  | cons b bytes ih =>
    have hget : (sent ++ b :: bytes)[s.txIdx]? = some b := by simp [hidx]
    have htake : Leads s [takeByte]
        { s with txIdx := s.txIdx + 1, txState := if s.txIdx + 1 = s.txLen then .drain else .send
                 emitted := s.emitted ++ [.txByte b] } := by
      have ⟨hp, hr, hlen, hframe, hcap⟩ := hs
      exact leads_of_transmit hp hr rfl fun later =>
        Transmit.transmit_send (s := facing s later) hx rfl
          (Invariant.memRead_of_frame (s := facing s later) hlen hframe hcap hget)
    have hlen : s.txLen = sent.length + (bytes.length + 1) := by
      obtain ⟨-, -, hlen, -⟩ := hs
      simpa using hlen
    by_cases hlast : bytes = []
    · have hdone : s.txIdx + 1 = s.txLen := by simp [hlen, hidx, hlast]
      rw [if_pos hdone, hdone] at htake
      simpa [hlast] using htake
    · have hmore : s.txIdx + 1 ≠ s.txLen := by
        have := List.length_pos_iff.2 hlast
        omega
      rw [if_neg hmore] at htake
      have hrest := @ih
        { s with txIdx := s.txIdx + 1, txState := .send, emitted := s.emitted ++ [.txByte b] } (sent ++ [b])
        (by rw [List.append_assoc]; exact hs) rfl (by simp [hidx]) hlast
      have hall := htake.append hrest
      rwa [List.append_assoc] at hall

/-- Settles O41: the settle delay, the bytes, the drain and the settle delay behind them. -/
theorem responseIsSentOnceInOrder : Obligations.ResponseIsSentOnceInOrder := by
  intro s hinv hr hp hx
  have hs := Invariant.invariant_iff.1 hinv
  obtain ⟨hidle, -⟩ := (Invariant.latchOk_iff (by simp [hp])).1 hs.latch
  obtain ⟨-, hplace, k, hlen, hframe⟩ := (Invariant.transmitOk_tx_iff hp).1 hs.transmit
  rw [hx] at hplace
  have hidx : s.txIdx = 0 := hplace
  have hstreams : Streams (txPreDone s) ([] ++ responseFrame s.cfg.crc s.dcmd k) :=
    ⟨hp, hr, by simpa using hlen, hframe, (Invariant.rangesOk_iff.1 hs.ranges).txLen⟩
  have hne : responseFrame s.cfg.crc s.dcmd k ≠ [] := List.ne_nil_of_length_pos (by simp)
  have hsend := leads_send hstreams rfl hidx hne
  rw [responseFrame_length, ← hlen, ← hframe] at hsend
  have hrun := ((leads_preDone hp hr hx).append (hsend.append
    ((leads_txComplete (by exact hp) (by exact hr) rfl).append (leads_postDone (by exact hp) (by exact hr) rfl)))).run
  simp only [List.cons_append, List.nil_append] at hrun
  exact ⟨_, hrun, rfl, ⟨k, hframe⟩, rfl, hidle, rfl, rfl, rfl, rfl⟩

end Sys2Proof.Laws.Runs

/-! PROOFS. Whole frames received byte by byte (spec/41_receive.md section 6). -/

namespace Sys2Proof.Laws.Runs
open Sys2Proof.Machine Sys2Proof.Safety
open Sys2Proof.Laws.Invariant (Holds holds_start holds_appendRaw holds_keep holds_drop)
open Sys2Proof.Laws.Decoding (carriable_cons requestFrame_eq)

/-! What a receive session does not own. -/

/-- The state with nothing of a receive session in it. -/
def withoutSession (s : State) : State :=
  { s with rxState := .idle, rawLen := 0, contentLen := 0, cmd := 0, expCrc := 0, raw := [], content := [] }

/-- `t` is receiving, and differs from `s` in the receive session only. -/
def ReceivingAs (s t : State) : Prop := t.phase = .rx ∧ t.rst = false ∧ withoutSession t = withoutSession s

/-- A session of `s` in which the bytes `fed` have been consumed, among them those of `content`. -/
def InSession (s t : State) (r : RxState) (fed content : List Byte) : Prop :=
  ReceivingAs s t ∧ t.rxState = r ∧ Holds t fed content

section
variable {s t : State} {r : RxState} {fed content : List Byte}

theorem ReceivingAs.cfg (h : ReceivingAs s t) : t.cfg = s.cfg := by
  obtain ⟨-, -, hsame⟩ := h
  exact (congrArg State.cfg hsame :)

theorem ReceivingAs.devAddr (h : ReceivingAs s t) : t.devAddr = s.devAddr := by
  obtain ⟨-, -, hsame⟩ := h
  exact (congrArg State.devAddr hsame :)

theorem InSession.rawLen_lt (h : InSession s t r fed content) (hcap : fed.length < s.cfg.rawCap) :
    t.rawLen < t.cfg.rawCap := by
  obtain ⟨ht, -, hlen, -⟩ := h
  rwa [ht.cfg, hlen]

/-! One good byte. -/

theorem leads_of_receive {b : Byte} (hp : t.phase = .rx) (hr : t.rst = false) {u : State}
    (h : ∀ later, receive b false (facing t later) = .ok (facing u later)) : Leads t [goodByte b] u := by
  refine leads_of_step fun later => ?_
  have hreceives : Receives (facing t (goodByte b :: later)) b later := ⟨hp, _, ⟨rfl, rfl, hr⟩, rfl, rfl, rfl⟩
  rw [Receive.step_of_receives hreceives]
  exact toOutcome_next.2 (h later)

/-- R120. -/
theorem leads_of_rule {b : Byte} (ht : ReceivingAs s t) (hb : b ≠ soh) {u : State}
    (h : ∀ later, rxByState b (facing t later) = .ok (facing u later)) : Leads t [goodByte b] u := by
  obtain ⟨hp, hr, -⟩ := ht
  refine leads_of_receive hp hr fun later => ?_
  rw [← h later]
  exact if_neg hb

/-- R123. -/
theorem leads_soh (hp : s.phase = .rx) (hr : s.rst = false) (hcap : 0 < s.cfg.rawCap)
    (hmode : s.cfg.sohAtAddr0 = .restart ∨ s.rxState ≠ .addr0) :
    ∃ t, InSession s t .addr0 [soh] [] ∧ Leads s [goodByte soh] t := by
  refine ⟨{ s with raw := Memory.write s.raw 0 soh, rawLen := 1, contentLen := 0, rxState := .addr0 },
    ⟨⟨hp, hr, rfl⟩, rfl, holds_start s⟩, leads_of_receive hp hr fun later => ?_⟩
  have hrestart : ¬ (s.rxState = .addr0 ∧ s.cfg.sohAtAddr0 = .toIdle) := by
    rintro ⟨hx, htoIdle⟩
    simp [hx, htoIdle] at hmode
  exact (if_neg hrestart).trans (startSession_ok.2 ⟨hcap, rfl⟩)

/-- R126 to R128, R130, the expected byte. -/
theorem InSession.header_expected {b : Byte} {after : RxState} (h : InSession s t r fed content) (hb : b ≠ soh)
    (he : headerExpects s.devAddr r = some (b, after)) (hcap : fed.length < s.cfg.rawCap) :
    ∃ u, InSession s u after (fed ++ [b]) content ∧ u.cmd = t.cmd ∧ Leads t [goodByte b] u := by
  have hroom := h.rawLen_lt hcap
  obtain ⟨ht, rfl, hheld⟩ := h
  rw [← ht.devAddr] at he
  refine ⟨{ t with raw := Memory.write t.raw t.rawLen b, rawLen := t.rawLen + 1, rxState := after },
    ⟨ht, rfl, holds_appendRaw hheld b⟩, rfl, leads_of_rule ht hb fun later => ?_⟩
  exact (Receive.rxByState_header (s := facing t later) he hroom).trans (congrArg Except.ok (if_pos rfl))

/-- R126 to R128, R130, any other byte. -/
theorem InSession.header_other {b want : Byte} {after : RxState} (h : InSession s t r fed content) (hb : b ≠ soh)
    (he : headerExpects s.devAddr r = some (want, after)) (hcap : fed.length < s.cfg.rawCap) (hne : b ≠ want) :
    Leads t [goodByte b] t.abort := by
  have hroom := h.rawLen_lt hcap
  obtain ⟨ht, rfl, hheld⟩ := h
  rw [← ht.devAddr] at he
  refine leads_of_rule ht hb fun later => ?_
  exact (Receive.rxByState_header (s := facing t later) he hroom).trans (congrArg Except.ok (if_neg hne))

theorem ne_soh_of_isLetter {b : Byte} (h : isLetter b = true) : b ≠ soh := by
  rintro rfl
  exact absurd h (by decide)

/-- R129. -/
theorem InSession.letter {b : Byte} (h : InSession s t .cmd fed content) (hb : isLetter b = true)
    (hcap : fed.length < s.cfg.rawCap) :
    ∃ u, InSession s u .cstart (fed ++ [b]) content ∧ u.cmd = b ∧ Leads t [goodByte b] u := by
  have hroom := h.rawLen_lt hcap
  obtain ⟨ht, hx, hheld⟩ := h
  refine ⟨{ t with raw := Memory.write t.raw t.rawLen b, rawLen := t.rawLen + 1, cmd := b, rxState := .cstart },
    ⟨ht, rfl, holds_appendRaw hheld b⟩, rfl, leads_of_rule ht (ne_soh_of_isLetter hb) fun later => ?_⟩
  exact (Receive.rxByState_cmd (s := facing t later) hx hroom).trans
    (congrArg Except.ok (if_pos ((Receive.isLetter_iff b).1 hb)))

/-- R133. -/
theorem InSession.data {b : Byte} (h : InSession s t .content fed content) (hsoh : b ≠ soh) (hetx : b ≠ etx)
    (hcap : fed.length < s.cfg.rawCap) :
    ∃ u, InSession s u .content (fed ++ [b]) (content ++ [b]) ∧ u.cmd = t.cmd ∧ Leads t [goodByte b] u := by
  have hroom := h.rawLen_lt hcap
  obtain ⟨ht, hx, hheld⟩ := h
  have hrule := fun later => Receive.rxByState_content_data (s := facing t later) (b := b) hx hroom hetx
  by_cases hkeep : t.contentLen < t.cfg.contentCap
  · exact ⟨{ t with raw := Memory.write t.raw t.rawLen b, rawLen := t.rawLen + 1
                    content := Memory.write t.content t.contentLen b, contentLen := t.contentLen + 1 },
      ⟨ht, hx, holds_keep hheld b hkeep⟩, rfl,
      leads_of_rule ht hsoh fun later => (hrule later).trans (congrArg Except.ok (if_pos hkeep))⟩
  · exact ⟨{ t with raw := Memory.write t.raw t.rawLen b, rawLen := t.rawLen + 1 },
      ⟨ht, hx, holds_drop hheld b (not_lt.1 hkeep)⟩, rfl,
      leads_of_rule ht hsoh fun later => (hrule later).trans (congrArg Except.ok (if_neg hkeep))⟩

/-- R131. -/
theorem InSession.full_aborts {b : Byte} (h : InSession s t .content fed content) (hsoh : b ≠ soh)
    (hfull : fed.length = s.cfg.rawCap) : Leads t [goodByte b] t.abort := by
  obtain ⟨ht, hx, hlen, -⟩ := h
  have hfull : t.rawLen = t.cfg.rawCap := by rw [ht.cfg, hlen, hfull]
  exact leads_of_rule ht hsoh fun later => Receive.rxByState_content_full (s := facing t later) hx hfull

/-- R132. -/
theorem InSession.endOfContent (h : InSession s t .content fed content) (hcap : fed.length < s.cfg.rawCap) :
    ∃ u, InSession s u .ck0 (fed ++ [etx]) content ∧ u.cmd = t.cmd ∧ u.expCrc = crc16 s.cfg.crc (fed ++ [etx])
      ∧ Leads t [goodByte etx] u := by
  have hroom := h.rawLen_lt hcap
  obtain ⟨ht, hx, hheld⟩ := h
  have ⟨hlen, hraw, _⟩ := hheld
  refine ⟨{ t with raw := Memory.write t.raw t.rawLen etx, rawLen := t.rawLen + 1
                   expCrc := crc16 t.cfg.crc (bytesBelow t.raw t.rawLen ++ [etx]), rxState := .ck0 },
    ⟨ht, rfl, holds_appendRaw hheld etx⟩, rfl, ?_, leads_of_rule ht (by decide) fun later => ?_⟩
  · rw [← hraw, ← ht.cfg]
  · exact Receive.rxByState_content_etx (s := facing t later) hx hroom ((congrArg List.length hraw).trans hlen.symm)

theorem hex1_ne_soh (n : BitVec 4) : hex1 n ≠ soh := by
  intro h
  have hnat : (hex1 n).toNat = 1 := congrArg BitVec.toNat h
  rw [Encoding.hex1_toNat] at hnat
  split at hnat <;> omega

/-- R134 to R136. -/
theorem InSession.digit {lo : Nat} {after : RxState} (h : InSession s t r fed content)
    (he : digitExpects r = some (lo, after)) :
    ∃ u, InSession s u after fed content ∧ u.cmd = t.cmd ∧ u.expCrc = t.expCrc
      ∧ Leads t [goodByte (hex1 (t.expCrc.extractLsb' lo 4))] u := by
  obtain ⟨ht, rfl, hheld⟩ := h
  refine ⟨{ t with rxState := after }, ⟨ht, rfl, hheld⟩, rfl, rfl, leads_of_rule ht (hex1_ne_soh _) fun later => ?_⟩
  exact (Receive.rxByState_digit (s := facing t later) he).trans (congrArg Except.ok (if_pos rfl))

/-- R138: the state in which the frame of a session has been accepted. -/
def acceptedFrom (t : State) : State :=
  { t with dcmd := t.cmd, dlen := t.contentLen, rxState := .idle, rawLen := 0, contentLen := 0
           phase := .dispatch, earlierUptimes := [] }

/-- R137, R138. -/
theorem InSession.accept (h : InSession s t .ck3 fed content) :
    Leads t [goodByte (hex1 (t.expCrc.extractLsb' 0 4))] (acceptedFrom t) := by
  obtain ⟨ht, hx, -⟩ := h
  refine leads_of_rule ht (hex1_ne_soh _) fun later => ?_
  exact (Receive.rxByState_ck3 (s := facing t later) hx).trans (congrArg Except.ok (if_pos rfl))

/-- R105, R134 to R138: the four digits of the expected checksum end in acceptance. -/
theorem InSession.digits (h : InSession s t .ck0 fed content) :
    ∃ u, InSession s u .ck3 fed content ∧ u.cmd = t.cmd
      ∧ Leads t ((hex4 t.expCrc).map goodByte) (acceptedFrom u) := by
  obtain ⟨t1, h1, c1, e1, l1⟩ := h.digit rfl
  obtain ⟨t2, h2, c2, e2, l2⟩ := h1.digit rfl
  obtain ⟨t3, h3, c3, e3, l3⟩ := h2.digit rfl
  have l4 := h3.accept
  rw [e1] at l2
  rw [e2, e1] at l3
  rw [e3, e2, e1] at l4
  exact ⟨t3, h3, by rw [c3, c2, c1], ((l1.append l2).append l3).append l4⟩

/-- R145: the decoder is given the part of the content that the content buffer holds. -/
theorem InSession.fetch_accepted (h : InSession s t r fed content) :
    t.contentLen = min content.length s.cfg.contentCap
      ∧ fetch (facing (acceptedFrom t) []) = .ok (t.cmd :: content.take s.cfg.contentCap) := by
  obtain ⟨ht, -, -, -, hclen, hcontent⟩ := h
  have hfetch : fetch (facing (acceptedFrom t) []) = .ok (t.cmd :: bytesBelow t.content t.contentLen) :=
    Invariant.fetch_of_latched (s := facing (acceptedFrom t) []) (by simp [facing, acceptedFrom])
      (hclen.trans_le (min_le_right _ _)) (by
        show (bytesBelow t.content t.contentLen).length = t.contentLen
        rw [hcontent, hclen, List.length_take, Nat.min_comm])
  rw [hcontent] at hfetch
  rw [ht.cfg] at hclen hfetch
  exact ⟨hclen, hfetch⟩

/-- R125: an idle receiver discards bytes until an SOH. -/
theorem leads_idle (ht : ReceivingAs s t) (hx : t.rxState = .idle) {bytes : List Byte} (hsoh : soh ∉ bytes) :
    Leads t (bytes.map goodByte) t := by
  induction bytes with
  | nil => exact leads_nil t
  | cons b bytes ih =>
    obtain ⟨hb, hbytes⟩ : b ≠ soh ∧ soh ∉ bytes := by
      simpa [eq_comm] using hsoh
    exact (leads_of_rule ht hb fun later => Receive.rxByState_idle (s := facing t later) hx).append (ih hbytes)

/-- R121, R125: behind an abort nothing happens until an SOH. -/
theorem leads_abort {b : Byte} {bytes : List Byte} (ht : ReceivingAs s t) (h : Leads t [goodByte b] t.abort)
    (hsoh : soh ∉ bytes) : Leads t ((b :: bytes).map goodByte) t.abort :=
  h.append (leads_idle (s := s) (t := t.abort) ht rfl hsoh)

end

/-! Whole frames. -/

section
variable {s : State} (hp : s.phase = .rx) (hr : s.rst = false) (hcap : 7 ≤ s.cfg.rawCap)
  (hmode : s.cfg.sohAtAddr0 = .restart ∨ s.rxState ≠ .addr0)
include hp hr hcap hmode

/-- SOH and the node's address, separator, letter and STX bring every receive state to `CONTENT`. -/
theorem leads_header {cmd : Byte} (hcmd : isLetter cmd = true) :
    ∃ t, InSession s t .content [soh, addrCh0 s.devAddr, addrCh1 s.devAddr, colon, cmd, stx] [] ∧ t.cmd = cmd
      ∧ Leads s ([soh, addrCh0 s.devAddr, addrCh1 s.devAddr, colon, cmd, stx].map goodByte) t := by
  obtain ⟨t0, h0, l0⟩ := leads_soh hp hr (by omega) hmode
  obtain ⟨t1, h1, -, l1⟩ := h0.header_expected (b := addrCh0 s.devAddr) (hex1_ne_soh _) rfl (by simp; omega)
  obtain ⟨t2, h2, -, l2⟩ := h1.header_expected (b := addrCh1 s.devAddr) (hex1_ne_soh _) rfl (by simp; omega)
  obtain ⟨t3, h3, -, l3⟩ := h2.header_expected (b := colon) (by decide) rfl (by simp; omega)
  obtain ⟨t4, h4, c4, l4⟩ := h3.letter hcmd (by simp; omega)
  obtain ⟨t5, h5, c5, l5⟩ := h4.header_expected (b := stx) (by decide) rfl (by simp; omega)
  exact ⟨t5, h5, c5.trans c4, ((((l0.append l1).append l2).append l3).append l4).append l5⟩

/-- The first address character that is wrong aborts. -/
theorem leads_other_address {a0 a1 : Byte} {rest : List Byte}
    (haddr : ¬ (a0 = addrCh0 s.devAddr ∧ a1 = addrCh1 s.devAddr)) (ha0 : a0 ≠ soh) (ha1 : a1 ≠ soh)
    (hrest : soh ∉ rest) :
    ∃ u, ReceivingAs s u ∧ Leads s ((soh :: a0 :: a1 :: rest).map goodByte) u.abort := by
  obtain ⟨t, h, hsoh⟩ := leads_soh hp hr (by omega) hmode
  by_cases h0 : a0 = addrCh0 s.devAddr
  · have h1 : a1 ≠ addrCh1 s.devAddr := fun h1 => haddr ⟨h0, h1⟩
    obtain ⟨u, hu, -, hbyte⟩ := h.header_expected (after := .addr1) ha0 (by rw [h0]; rfl) (by simp; omega)
    have habort := hu.header_other (want := addrCh1 s.devAddr) ha1 rfl (by simp; omega) h1
    exact ⟨u, hu.1, (hsoh.append hbyte).append (leads_abort hu.1 habort hrest)⟩
  · have habort := h.header_other (want := addrCh0 s.devAddr) ha0 rfl (by simp; omega) h0
    have hrest' : soh ∉ a1 :: rest := by simp [ha1.symm, hrest]
    exact ⟨t, h.1, hsoh.append (leads_abort h.1 habort hrest')⟩

end

/-- Content that fits is stored whole in `RAW`. -/
theorem InSession.content_fits {s t : State} {fed before content : List Byte} (h : InSession s t .content fed before)
    (hcar : carriable content = true) (hcap : fed.length + content.length < s.cfg.rawCap) :
    ∃ u, InSession s u .content (fed ++ content) (before ++ content) ∧ u.cmd = t.cmd
      ∧ Leads t (content.map goodByte) u := by
  induction content generalizing t fed before with
  | nil => exact ⟨t, by simpa using h, rfl, leads_nil t⟩
  | cons b content ih =>
    obtain ⟨hsoh, hetx, hcar⟩ := (carriable_cons b content).1 hcar
    rw [List.length_cons] at hcap
    obtain ⟨u, hu, hcmd, hbyte⟩ := h.data hsoh hetx (by omega)
    obtain ⟨v, hv, hcmd', hrest⟩ := ih hu hcar (by simp; omega)
    exact ⟨v, by simpa using hv, hcmd'.trans hcmd, hbyte.append hrest⟩

theorem soh_notMem_of_carriable {content : List Byte} (h : carriable content = true) : soh ∉ content := by
  intro hmem
  have := List.all_eq_true.1 h soh hmem
  simp at this

theorem soh_notMem_tail {content digits : List Byte} (hcontent : soh ∉ content) (hdigits : soh ∉ digits) :
    soh ∉ content ++ etx :: digits := by
  have hetx : soh ≠ etx := by decide
  simp [hcontent, hdigits, hetx]

/-- Content that does not fit fills `RAW`, and the next byte, an ETX at the latest, aborts. -/
theorem InSession.content_overlong {s t : State} {fed before content digits : List Byte}
    (h : InSession s t .content fed before) (hcar : carriable content = true) (hdigits : soh ∉ digits)
    (hle : fed.length ≤ s.cfg.rawCap) (hover : s.cfg.rawCap ≤ fed.length + content.length) :
    ∃ u, ReceivingAs s u ∧ Leads t ((content ++ etx :: digits).map goodByte) u.abort := by
  induction content generalizing t fed before with
  | nil =>
    have hfull : fed.length = s.cfg.rawCap := le_antisymm hle (by simpa using hover)
    exact ⟨t, h.1, leads_abort h.1 (h.full_aborts (by decide) hfull) hdigits⟩
  | cons b content ih =>
    obtain ⟨hsoh, hetx, hcar⟩ := (carriable_cons b content).1 hcar
    obtain hfull | hroom := hle.eq_or_lt
    · refine ⟨t, h.1, leads_abort h.1 (h.full_aborts hsoh hfull) ?_⟩
      exact soh_notMem_tail (soh_notMem_of_carriable hcar) hdigits
    · rw [List.length_cons] at hover
      obtain ⟨u, hu, -, hbyte⟩ := h.data hsoh hetx hroom
      obtain ⟨v, hv, hrest⟩ := ih hu hcar (by simpa using hroom) (by simp; omega)
      exact ⟨v, hv, hbyte.append hrest⟩

theorem soh_notMem_hex4 (v : BitVec 16) : soh ∉ hex4 v := by
  simp [hex4, (hex1_ne_soh _).symm]

/-- R146: a request frame to this node ends in the acceptance of its session. -/
theorem leads_requestFrame {s : State} (hp : s.phase = .rx) (hr : s.rst = false)
    (hmode : s.cfg.sohAtAddr0 = .restart ∨ s.rxState ≠ .addr0) {cmd : Byte} {content : List Byte}
    (hcmd : isLetter cmd = true) (hcar : carriable content = true) (hcap : 7 + content.length ≤ s.cfg.rawCap) :
    ∃ t fed, InSession s t .ck3 fed content ∧ t.cmd = cmd
      ∧ Leads s ((requestFrame s.cfg.crc s.devAddr cmd content).map goodByte) (acceptedFrom t) := by
  obtain ⟨t0, h0, c0, l0⟩ := leads_header hp hr (by omega) hmode hcmd
  obtain ⟨t1, h1, c1, l1⟩ := h0.content_fits hcar (by simp; omega)
  obtain ⟨t2, h2, c2, e2, l2⟩ := h1.endOfContent (by simp; omega)
  obtain ⟨t3, h3, c3, l3⟩ := h2.digits
  have hcrc : t2.expCrc = crc16 s.cfg.crc (frameBody (addrCh0 s.devAddr) (addrCh1 s.devAddr) cmd content) := e2
  have hlead := ((l0.append l1).append l2).append l3
  rw [hcrc] at hlead
  refine ⟨t3, _, h3, by rw [c3, c2, c1, c0], ?_⟩
  rw [requestFrame_eq]
  simpa using hlead

/-- Settles O24: what the session does not own is the same when its frame is accepted. -/
theorem requestFrameIsAccepted : Obligations.RequestFrameIsAccepted := by
  intro s cmd content hr hp hmode hcmd hcar hcap
  obtain ⟨t, fed, h, rfl, hlead⟩ := leads_requestFrame hp hr hmode hcmd hcar hcap
  obtain ⟨hdlen, hfetch⟩ := h.fetch_accepted
  obtain ⟨ht, -⟩ := h
  have ⟨_, hrst, hsame⟩ := ht
  exact ⟨_, hlead.run, rfl, rfl, hdlen, hfetch, rfl, rfl, rfl, rfl, ht.cfg, ht.devAddr, hrst,
    (congrArg State.txState hsame :), (congrArg State.txLen hsame :), (congrArg State.txIdx hsame :),
    (congrArg State.de hsame :), (congrArg State.capKind hsame :), (congrArg State.capCh hsame :),
    (congrArg State.capPort hsame :), (congrArg State.capValue hsame :), (congrArg State.tickCounter hsame :),
    (congrArg State.uptimeSeconds hsame :), (congrArg State.emitted hsame :), (congrArg State.draws hsame :), rfl,
    fun a => (congrArg (fun u => Memory.read (State.txbuf u) a) hsame :)⟩

/-- Settles O25: the content, or the ETX behind it, finds `RAW` full. -/
theorem overlongFrameIsAborted : Obligations.OverlongFrameIsAborted := by
  intro s cmd content hr hp hmode hcmd hcar hcap hover
  obtain ⟨t, h, -, hheader⟩ := leads_header hp hr hcap hmode hcmd
  obtain ⟨u, hu, hrest⟩ := h.content_overlong hcar (soh_notMem_hex4 _) (by simp; omega) (by simp; omega)
  have hrun := (hheader.append hrest).run
  rw [← List.map_append] at hrun
  rw [requestFrame_eq]
  obtain ⟨hup, -, hsame⟩ := hu
  exact ⟨_, hrun, hup, rfl, rfl, rfl, (congrArg State.dcmd hsame :), (congrArg State.dlen hsame :),
    (congrArg State.emitted hsame :), (congrArg State.de hsame :)⟩

/-- Settles O26: behind the abort no byte is an SOH. -/
theorem frameToAnotherAddressIsIgnored : Obligations.FrameToAnotherAddressIsIgnored := by
  intro s a0 a1 cmd content digits hr hp hcap hmode haddr ha0 ha1 hcmd hcar hdigits
  have hrest : soh ∉ colon :: cmd :: stx :: (content ++ etx :: digits) := by
    have hcolon : soh ≠ colon := by decide
    have hstx : soh ≠ stx := by decide
    have hcmd' : soh ≠ cmd := hcmd.symm
    simp only [List.mem_cons, hcolon, hstx, hcmd', false_or]
    exact soh_notMem_tail (soh_notMem_of_carriable hcar) hdigits
  obtain ⟨u, ⟨hup, -, hsame⟩, hrun⟩ := leads_other_address hp hr hcap hmode haddr ha0 ha1 hrest
  have hbytes : soh :: a0 :: a1 :: colon :: cmd :: stx :: (content ++ etx :: digits)
      = frameBody a0 a1 cmd content ++ digits := by simp [frameBody]
  rw [hbytes] at hrun
  exact ⟨_, hrun.run, hup, rfl, (congrArg State.dcmd hsame :), (congrArg State.dlen hsame :),
    (congrArg State.emitted hsame :), (congrArg State.de hsame :)⟩

end Sys2Proof.Laws.Runs
